-- ==== Sys2Proof/Word.lean ====
section
/-! DEFINITION. The words of the block: bytes and command words (spec 00_scope.md R9, 30_encoding.md R60). -/

namespace Sys2Proof

/-- A byte is 8 bits (R9). -/
abbrev Byte := BitVec 8

/-- A command is one 48-bit word `cmd[47:0]` (R60). -/
abbrev CmdWord := BitVec 48

end Sys2Proof
end

