-- ==== Sys2Proof/Config.lean ====
section
/-! DEFINITION. What is fixed for this hardware (00_scope.md R7, R8; 10_state.md R25), the parameters the spec leaves
OPEN, and the free values. An `opaque` constant has no body: no proof can see a value of it. -/

namespace Sys2Proof

/-- The serial bit order a transport can be asked for (R25). -/
inductive BitOrder where
  | msbFirst
  | lsbFirst
deriving DecidableEq, Repr

/-- Clock polarity and phase, 2 bits (R25). -/
structure SpiMode where
  cpol : Bool
  cpha : Bool
deriving DecidableEq, Repr, Inhabited

/-- The lines a serial transport could be asked for. The block requests only the data-out line (R25, R121). -/
inductive SerialLine where
  | dataOut
  | dataIn
  | clock
deriving DecidableEq, Repr

/-- The transport configuration record TXCFG (R25). -/
structure TxConfig where
  wordSize : Nat
  bitOrder : BitOrder
  spiMode : SpiMode
  freqHz : Nat
  lines : List SerialLine
deriving DecidableEq, Repr

/-- A level of the data line (R133, R134). -/
inductive LineLevel where
  | low
  | high
deriving DecidableEq, Repr, Inhabited

namespace Config

/-- `N`, the number of LED records (R7). -/
abbrev stripLen : Nat := 10

/-- `F_SERIAL` in Hz (R7). -/
def fSerialHz : Nat := 8000000

/-- `GAP_LEN` in bytes (R7). -/
def gapLen : Nat := 64

/-- `SYM_ONE`, a constant of its own, not derived from `F_SERIAL` (R7, R8). -/
def symOne : Byte := 0xFC#8

/-- `SYM_ZERO`, a constant of its own, not derived from `F_SERIAL` (R7, R8). -/
def symZero : Byte := 0xC0#8

/-- `GAP_BYTE` (R7). -/
def gapByte : Byte := 0x00#8

/-- `SYMS_PER_LED` (R7). -/
def symsPerLed : Nat := 24

/-- `L`, the length of the symbol buffer in bytes (R7). -/
def bufLen : Nat := symsPerLed * stripLen + gapLen

/-- `WORD_SIZE` (R7). -/
def wordSize : Nat := 8

/-- `BIT_ORDER` (R7). -/
def bitOrder : BitOrder := .msbFirst

/-- `IDX_WIDTH` (R7). -/
def idxWidth : Nat := 16

/-- `SPI_MODE`, OPEN (R7, D19). Log entry 9. -/
opaque spiMode : SpiMode

/-- `IDLE_LEVEL`, OPEN (R7, D18). Log entry 9. -/
opaque idleLevel : LineLevel

/-- `T_RESET_MIN` in ns, OPEN (R7, D40). Log entry 9. -/
opaque tResetMinNs : Nat

/-- The value of the hard-wired record TXCFG (R25). -/
def txcfg : TxConfig :=
  { wordSize := wordSize, bitOrder := bitOrder, spiMode := spiMode, freqHz := fSerialHz, lines := [.dataOut] }

/-- What SYMBUF holds at an offset no `update` has written: any value (R31, D10). Log entry 7. -/
opaque symbufPowerOn : Nat → Byte

/-- The answer of the transport's n-th readiness query: a free Boolean (R122 (a), D39). Log entry 4. -/
opaque freeReady : Nat → Bool

/-- The status the transport's n-th write returns: none if it never returns, 0 for success, another value for the
failure code (R122 (c), (d), D32, D43). Log entries 4 and 5. -/
opaque freeWriteStatus : Nat → Option (BitVec 32)

/-- How many bytes of a failed n-th write reached the line (R131, D16). Log entries 4 and 5. -/
opaque freeEmittedCount : Nat → Nat

/-- Which of the hosts that have a command to issue gets the port, at the n-th choice (R48, D17). Log entry 3. -/
opaque freeTurn : Nat → Nat

/-- The limits R7 sets on `N`, and `L`'s formula. -/
def valuesFit (n width gap len : Nat) : Bool :=
  decide (1 ≤ n) && decide (n ≤ 2 ^ width - 1) && len == 24 * n + gap

end Config

end Sys2Proof
end

