-- ==== Sys2Proof/Syntax.lean ====
section
/-! DEFINITION. The command set WSENC-1 (30_encoding.md R63, R64): one constructor of `Instr` per row of the opcode
table, with the operands of R61 and R62 at their widths; and the assembler's statement (R68), whose operands are
unsigned integers of any size. -/

namespace Sys2Proof

/-- The eight commands (R63). A field's width is its width in the command word (R61), so a value that does not fit its
field cannot be written down. -/
inductive Instr where
  | init
  | deinit
  | setLed (idx : BitVec 16) (r g b : Byte)
  | setAllLeds (r g b : Byte)
  | clearLeds
  | getLed (idx : BitVec 16)
  | encBit (bit : BitVec 1)
  | update
deriving DecidableEq, Repr

/-- The mnemonics of R63. -/
inductive Mnemonic where
  | init
  | deinit
  | setLed
  | setAllLeds
  | clearLeds
  | getLed
  | encBit
  | update
deriving DecidableEq, Repr

/-- A statement of the assembler (R68): a mnemonic and its operands, in the order of R61. -/
structure AsmLine where
  mnemonic : Mnemonic
  operands : List Nat
deriving DecidableEq, Repr

/-- What an operand stands for (R61). -/
inductive OperandKind where
  | index
  | channel
  | bit
deriving DecidableEq, Repr

/-- Why the assembler refuses a line (R68: an assembly error, never truncated). -/
inductive AsmError where
  /-- the text is not of the form `mnemonic(operand, ...)` -/
  | malformedText
  /-- the text's mnemonic is none of R63's -/
  | unknownMnemonic
  /-- the number of operands is not the mnemonic's -/
  | wrongOperandCount
  /-- an index above 65535 -/
  | indexTooLarge (v : Nat)
  /-- a channel value above 255 -/
  | channelTooLarge (v : Nat)
  /-- a bit other than 0 or 1 -/
  | bitTooLarge (v : Nat)
deriving DecidableEq, Repr

end Sys2Proof
end

