-- ==== Sys2Proof/WellFormed.lean ====
section
/-! DEFINITION. Well-formedness. An `Instr` is well formed by its types; what can be ill formed is an assembler
statement (R68), and a choice of parameters (00_scope.md R7). -/

namespace Sys2Proof

/-- The operands of each mnemonic, in order (R68). -/
def Mnemonic.operandKinds : Mnemonic → List OperandKind
  | .init => []
  | .deinit => []
  | .setLed => [.index, .channel, .channel, .channel]
  | .setAllLeds => [.channel, .channel, .channel]
  | .clearLeds => []
  | .getLed => [.index]
  | .encBit => [.bit]
  | .update => []

/-- The largest value that fits the operand's field (R68). -/
def OperandKind.limit : OperandKind → Nat
  | .index => 65535
  | .channel => 255
  | .bit => 1

/-- The error for an operand that does not fit (R68). -/
def OperandKind.tooLarge : OperandKind → Nat → AsmError
  | .index, v => .indexTooLarge v
  | .channel, v => .channelTooLarge v
  | .bit, v => .bitTooLarge v

/-- The first thing wrong with a list of operands, left to right; a wrong number of operands is reported where the
lists part. R68 gives no such order (DESIGN CHOICE, log entry 14). -/
def checkOperands : List OperandKind → List Nat → Option AsmError
  | [], [] => none
  | [], _ :: _ => some .wrongOperandCount
  | _ :: _, [] => some .wrongOperandCount
  | k :: ks, v :: vs => if v ≤ k.limit then checkOperands ks vs else some (k.tooLarge v)

/-- The first thing wrong with an assembler statement, none if it is well formed (R68). -/
def AsmLine.check (a : AsmLine) : Option AsmError := checkOperands a.mnemonic.operandKinds a.operands

/-- A well-formed assembler statement: the right number of operands, each fitting its field (R68). -/
def AsmLine.wellFormed (a : AsmLine) : Bool := a.check == none

/-- The parameters of this hardware satisfy R7's limits. -/
def Config.wellFormed : Bool :=
  Config.valuesFit Config.stripLen Config.idxWidth Config.gapLen Config.bufLen

end Sys2Proof
end

