-- ==== Sys2Proof/Decode.lean ====
section
/-! DEFINITION. The decoder of the command word (30_encoding.md R60 to R65, R67), its reasons to reject, the opcode
table of R64 as data, and the encoder. -/

namespace Sys2Proof

/-- Why a word is illegal (R65). Both lead to the result IllegalCommand. -/
inductive Reject where
  /-- the `OPC` value is reserved -/
  | reservedOpcode (opc : Byte)
  /-- the `OPC` is listed and a field its row requires zero is not zero -/
  | nonzeroField (opc : Byte)
deriving DecidableEq, Repr

/-- `OPC = cmd[47:40]` (R61). -/
def opcField (w : CmdWord) : Byte := w.extractLsb' 40 8

/-- `IDX = cmd[39:24]` (R61). -/
def idxField (w : CmdWord) : BitVec 16 := w.extractLsb' 24 16

/-- `R = cmd[23:16]` (R61). -/
def redField (w : CmdWord) : Byte := w.extractLsb' 16 8

/-- `G = cmd[15:8]` (R61). -/
def greenField (w : CmdWord) : Byte := w.extractLsb' 8 8

/-- `B = cmd[7:0]` (R61). -/
def blueField (w : CmdWord) : Byte := w.extractLsb' 0 8

/-- `BIT = cmd[0]` (R61). -/
def bitField (w : CmdWord) : BitVec 1 := w.extractLsb' 0 1

/-- `cmd[7:1]`, the part of `B` that `enc_bit` requires zero (R64). -/
def blueHighField (w : CmdWord) : BitVec 7 := w.extractLsb' 1 7

/-- The three channel fields are zero. -/
def channelsZero (w : CmdWord) : Bool := redField w == 0 && greenField w == 0 && blueField w == 0

/-- Every field but `OPC` is zero. -/
def operandsZero (w : CmdWord) : Bool := idxField w == 0 && channelsZero w

/-- The row's command if the fields it requires zero are zero (R65). -/
def withZeroFields (w : CmdWord) (zero : Bool) (i : Instr) : Except Reject Instr :=
  if zero then .ok i else .error (.nonzeroField (opcField w))

/-- The decoder: total, and one outcome for every word (R64, R65, R67). -/
def decode (w : CmdWord) : Except Reject Instr :=
  if opcField w = 0x01#8 then withZeroFields w (operandsZero w) .init
  else if opcField w = 0x02#8 then withZeroFields w (operandsZero w) .deinit
  else if opcField w = 0x10#8 then .ok (.setLed (idxField w) (redField w) (greenField w) (blueField w))
  else if opcField w = 0x11#8 then
    withZeroFields w (idxField w == 0) (.setAllLeds (redField w) (greenField w) (blueField w))
  else if opcField w = 0x12#8 then withZeroFields w (operandsZero w) .clearLeds
  else if opcField w = 0x13#8 then withZeroFields w (channelsZero w) (.getLed (idxField w))
  else if opcField w = 0x20#8 then
    withZeroFields w (idxField w == 0 && redField w == 0 && greenField w == 0 && blueHighField w == 0)
      (.encBit (bitField w))
  else if opcField w = 0x30#8 then withZeroFields w (operandsZero w) .update
  else .error (.reservedOpcode (opcField w))

/-- The instruction the decoder reads from a table row's word. The row is one word of 48 bits (R60), numbered from 0 at
its least significant end (R9); the bits above `nbits` are zero. -/
def decodeTableWord (nbits w : Nat) : Option Instr :=
  if nbits ≤ 48 ∧ w < 2 ^ nbits then
    match decode (BitVec.ofNat 48 w) with
    | .ok i => some i
    | .error _ => none
  else none

/-- A command word from its five fields (R61). -/
def assembleWord (opc : Byte) (idx : BitVec 16) (r g b : Byte) : CmdWord := opc ++ idx ++ r ++ g ++ b

/-- The encoder: the word of a command, every field its row requires zero being zero (R61, R64). -/
def encode : Instr → CmdWord
  | .init => assembleWord 0x01#8 0 0 0 0
  | .deinit => assembleWord 0x02#8 0 0 0 0
  | .setLed idx r g b => assembleWord 0x10#8 idx r g b
  | .setAllLeds r g b => assembleWord 0x11#8 0 r g b
  | .clearLeds => assembleWord 0x12#8 0 0 0 0
  | .getLed idx => assembleWord 0x13#8 idx 0 0 0
  | .encBit bit => assembleWord 0x20#8 0 0 0 (bit.setWidth 8)
  | .update => assembleWord 0x30#8 0 0 0 0

/-- A row of R64's opcode map: a word selects the row when `word &&& mask = pattern` (the map's `match`). -/
structure OpcodeRow where
  mnemonic : Mnemonic
  pattern : CmdWord
  mask : CmdWord
deriving DecidableEq, Repr

/-- R64's opcode map. -/
def opcodeMap : List OpcodeRow :=
  [ ⟨.init, 0x010000000000#48, 0xFFFFFFFFFFFF#48⟩,
    ⟨.deinit, 0x020000000000#48, 0xFFFFFFFFFFFF#48⟩,
    ⟨.setLed, 0x100000000000#48, 0xFF0000000000#48⟩,
    ⟨.setAllLeds, 0x110000000000#48, 0xFFFFFF000000#48⟩,
    ⟨.clearLeds, 0x120000000000#48, 0xFFFFFFFFFFFF#48⟩,
    ⟨.getLed, 0x130000000000#48, 0xFF0000FFFFFF#48⟩,
    ⟨.encBit, 0x200000000000#48, 0xFFFFFFFFFFFE#48⟩,
    ⟨.update, 0x300000000000#48, 0xFFFFFFFFFFFF#48⟩ ]

/-- The word selects the row (R64). -/
def OpcodeRow.selects (row : OpcodeRow) (w : CmdWord) : Bool := w &&& row.mask == row.pattern

/-- The mnemonic of a command. -/
def Instr.mnemonic : Instr → Mnemonic
  | .init => .init
  | .deinit => .deinit
  | .setLed .. => .setLed
  | .setAllLeds .. => .setAllLeds
  | .clearLeds => .clearLeds
  | .getLed _ => .getLed
  | .encBit _ => .encBit
  | .update => .update

end Sys2Proof
end

