-- ==== Sys2Proof/Machine/State.lean ====
section
/-! DEFINITION. The state of the block (10_state.md), of the hosts on its command port and of the serial transport as
the block sees it (00_scope.md R6), the reasons a step can stop, and the state after reset (10_state.md R31). -/

namespace Sys2Proof.Machine

/-- A record of STRIP, in `(R, G, B)` order (10_state.md R20, R22). -/
structure Led where
  r : Byte
  g : Byte
  b : Byte
deriving DecidableEq, Repr

/-- A response record `RESULT[7:0], DATA[23:0], TXCODE[31:0]` (30_encoding.md R66). -/
structure Response where
  result : Byte
  data : BitVec 24
  txcode : BitVec 32
deriving DecidableEq, Repr

/-- The error kinds, each with the info it records (60_exceptions.md R150). -/
inductive ErrorKind where
  | deviceNotReady
  | invalidIndex (index : BitVec 32)
  | transportWriteFailed (code : BitVec 32)
  | illegalCommand
deriving DecidableEq, Repr

/-- The status of a transaction (10_state.md R29). -/
inductive TxStatus where
  | ok
  | fail (code : BitVec 32)
deriving DecidableEq, Repr

/-- An event of TX_LOG (10_state.md R29). -/
structure TxEvent where
  payload : List Byte
  status : TxStatus
  emitted : List Byte
deriving DecidableEq, Repr

/-- What the transport does with one `TxWrite` (43_transmit_driver.md R122 (c), (d), R131): it returns a status, 0 for
success and any other value for a failure's code, a failed write having put the first `emittedCount` bytes on the line;
or it never returns. Log entry 5. -/
inductive WriteAnswer where
  | returned (status : BitVec 32) (emittedCount : Nat)
  | neverReturns
deriving DecidableEq, Repr

/-- The serial transport as the block sees it (43_transmit_driver.md R122): its answers already fixed, oldest first,
after which they are the free values of `Config`; how often each operation was called; and the configuration record it
was last handed. Log entries 4 and 11. -/
structure Transport where
  readyAnswers : List Bool
  readyQueries : Nat
  writeAnswers : List WriteAnswer
  writeCalls : Nat
  config : Option TxConfig
  configureCalls : Nat
deriving DecidableEq, Repr

/-- A host on the command port (00_scope.md R6, 60_exceptions.md R160): the command words it has still to issue, in
its own order, and the responses it has received, oldest first. Log entry 1. -/
structure CommandHost where
  commands : List CmdWord
  responses : List Response
deriving DecidableEq, Repr

/-- Bytes of SYMBUF by offset, offsets strictly rising. An offset not listed has not been written. -/
abbrev Memory := List Host.Cell

/-- The machine's state. `strip`, `symbuf`, `initialized` and `txLog` are the block's (10_state.md R20, R23, R26, R29);
TXCFG is hard-wired and has no storage (R25, see `State.txcfg`); `response` is the record on its way from the block to the
issuing host; `turns` and `turnDraws` say which host the port serves next (log entry 3). -/
structure State where
  strip : Vector Led Config.stripLen
  symbuf : Memory
  initialized : Bool
  txLog : List TxEvent
  response : Option Response
  hosts : List CommandHost
  turns : List Nat
  turnDraws : Nat
  transport : Transport
deriving DecidableEq, Repr

/-- The reasons a step can stop. -/
inductive Fault where
  /-- Raised by `update` alone: the transport's write never returns, so the command never completes and no further step
  exists (43_transmit_driver.md R122 (d), 60_exceptions.md R165). Safe: nothing is claimed of a run beyond it. -/
  | txWriteNeverReturns
deriving DecidableEq, Repr

/-- The reasons an instruction can be refused. The spec has no refused state (60_exceptions.md R165), and every command
has its meaning, so none is raised. -/
inductive Refusal where
  /-- Raised by an arm of `exec` whose instruction has no meaning yet: no arm is left. Safe: nothing is claimed of it. -/
  | notModelled (mnemonic : String)
deriving DecidableEq, Repr

/-- The three outcomes of a step of this machine. -/
abbrev Outcome := Host.Outcome State Fault Refusal

/-- `STRIP_INIT[i]`, the same for every `i` (00_scope.md R7, D9). Log entry 8. -/
def stripInit : Led := ⟨0#8, 0#8, 0#8⟩

/-- The transport before the block has called it, with no answer fixed. Log entry 13. -/
def Transport.untouched : Transport :=
  { readyAnswers := [], readyQueries := 0, writeAnswers := [], writeCalls := 0, config := none, configureCalls := 0 }

/-- The machine after reset (10_state.md R31, 70_reset_and_hazards.md R170). -/
def State.reset : State :=
  { strip := Vector.replicate Config.stripLen stripInit
    symbuf := []
    initialized := false
    txLog := []
    response := none
    hosts := []
    turns := []
    turnDraws := 0
    transport := Transport.untouched }

end Sys2Proof.Machine
end

