-- ==== Sys2Proof/Machine/Operands.lean ====
section
/-! DEFINITION. Operand assembly (30_encoding.md R62) and the packing of results (R66). -/

namespace Sys2Proof.Machine

/-- The index operand `zext_32(IDX)` (R62). -/
def indexOperand (idx : BitVec 16) : BitVec 32 := idx.setWidth 32

/-- The channel operands of a command as a record, used as they are (R62). -/
def ledOperand (r g b : Byte) : Led := ⟨r, g, b⟩

/-- The logical bit of a command (R62). -/
def bitOperand (bit : BitVec 1) : Bool := bit == 1#1

/-- `R<<16 | G<<8 | B`, the data of `get_led` (R66). -/
def Led.data (c : Led) : BitVec 24 :=
  (c.r.setWidth 24 <<< 16) ||| (c.g.setWidth 24 <<< 8) ||| c.b.setWidth 24

/-- `zext_24(symbol)`, the data of `enc_bit` (R66). -/
def symbolData (sym : Byte) : BitVec 24 := sym.setWidth 24

end Sys2Proof.Machine
end

