-- ==== Sys2Proof/Machine/Ops.lean ====
section
/-! DEFINITION. The named operations over the block's state: the LED records, the symbol buffer, INITIALIZED and TXCFG,
TX_LOG, the transport's primitives (00_scope.md R12, 43_transmit_driver.md R122), and how a command ends
(00_scope.md R13, 60_exceptions.md R151, R154). -/

namespace Sys2Proof.Machine

/-! ## The LED records (10_state.md R20) -/

/-- `STRIP[i]`, for an index that is valid (20_memory.md R45). -/
def State.led (s : State) (i : Nat) (h : i < Config.stripLen) : Led := s.strip[i]

/-- `STRIP[i] <- c`, for an index that is valid. -/
def State.setLed (s : State) (i : Nat) (h : i < Config.stripLen) (c : Led) : State :=
  { s with strip := s.strip.set i c }

/-- Every record of STRIP becomes `c`, as one update (20_memory.md R46). -/
def State.fillStrip (s : State) (c : Led) : State :=
  { s with strip := Vector.replicate Config.stripLen c }

/-! ## The symbol buffer (10_state.md R23, 20_memory.md R41) -/

namespace Memory

/-- The byte listed at an offset. -/
def lookup : Memory → Nat → Option Byte
  | [], _ => none
  | (k, b) :: rest, a => if k = a then some b else lookup rest a

/-- The byte at an offset: what was last written there, and before that any value (10_state.md R31). -/
def readByte (m : Memory) (a : Nat) : Byte := (lookup m a).getD (Config.symbufPowerOn a)

/-- A byte sequence as cells from an offset on. -/
def cells : Nat → List Byte → Memory
  | _, [] => []
  | a, b :: bs => (a, b) :: cells (a + 1) bs

/-- The memory with a byte sequence stored from an offset on. -/
def writeBytes (m : Memory) (a : Nat) (bs : List Byte) : Memory :=
  m.filter (fun c => decide (c.1 < a)) ++ cells a bs ++ m.filter (fun c => decide (a + bs.length ≤ c.1))

/-- The canonical form: offsets strictly rising, and none outside `0 .. L-1` (20_memory.md R41). -/
abbrev wf (m : Memory) : Prop := m.Pairwise (fun x y => x.1 < y.1) ∧ ∀ c ∈ m, c.1 < Config.bufLen

end Memory

/-- `SYMBUF[k]`. -/
def State.symbufByte (s : State) (k : Nat) : Byte := Memory.readByte s.symbuf k

/-- `MemWrite(addr, n, v)` for `n = len(v)` (00_scope.md R11). -/
def State.memWrite (s : State) (addr : Nat) (v : List Byte) : State :=
  { s with symbuf := Memory.writeBytes s.symbuf addr v }

/-- `MemRead(addr, n)` (00_scope.md R11). -/
def State.memRead (s : State) (addr n : Nat) : List Byte :=
  (List.range n).map fun k => s.symbufByte (addr + k)

/-! ## INITIALIZED, TXCFG, TX_LOG (10_state.md R25, R26, R29) -/

/-- `INITIALIZED <- v`. -/
def State.setInitialized (s : State) (v : Bool) : State := { s with initialized := v }

/-- TXCFG, hard-wired (10_state.md R25). Log entry 10. -/
def State.txcfg (_s : State) : TxConfig := Config.txcfg

/-- `TX_LOG <- TX_LOG ++ [e]`. -/
def State.appendTxLog (s : State) (e : TxEvent) : State := { s with txLog := s.txLog ++ [e] }

/-! ## The transport's primitives (43_transmit_driver.md R122) -/

/-- What the transport answers to the next `TxReady()`: the next answer fixed in the state, or else a free Boolean. -/
def State.readyAnswer (s : State) : Bool :=
  match s.transport.readyAnswers with
  | a :: _ => a
  | [] => Config.freeReady s.transport.readyQueries

/-- The state after one `TxReady()`. -/
def State.readyAsked (s : State) : State :=
  { s with transport := { s.transport with
      readyAnswers := s.transport.readyAnswers.tail
      readyQueries := s.transport.readyQueries + 1 } }

/-- `TxReady()`: a fresh draw at each call (R122 (a)). -/
def State.txReady (s : State) : Bool × State := (s.readyAnswer, s.readyAsked)

/-- `TxConfigure(cfg)`: it returns nothing and cannot fail (R122 (b)). -/
def State.txConfigure (s : State) (cfg : TxConfig) : State :=
  { s with transport := { s.transport with
      config := some cfg
      configureCalls := s.transport.configureCalls + 1 } }

/-- The free answer to the n-th write. -/
def freeWriteAnswer (n : Nat) : WriteAnswer :=
  match Config.freeWriteStatus n with
  | some status => .returned status (Config.freeEmittedCount n)
  | none => .neverReturns

/-- What the transport does with the next `TxWrite`: the next answer fixed in the state, or else a free one. -/
def State.writeAnswer (s : State) : WriteAnswer :=
  match s.transport.writeAnswers with
  | a :: _ => a
  | [] => freeWriteAnswer s.transport.writeCalls

/-- The state after one `TxWrite`. -/
def State.writeAsked (s : State) : State :=
  { s with transport := { s.transport with
      writeAnswers := s.transport.writeAnswers.tail
      writeCalls := s.transport.writeCalls + 1 } }

/-- What one transport answer means for a payload (R122 (c), R130, R131): status 0 is OK, and the whole payload left on
the line; any other status is FAIL with that code, and a prefix of the payload left; none if the write never returns. -/
def writeResult (answer : WriteAnswer) (payload : List Byte) : Option (TxStatus × List Byte) :=
  match answer with
  | .returned status n => if status = 0 then some (.ok, payload) else some (.fail status, payload.take n)
  | .neverReturns => none

/-- `TxWrite(p)`: one blocking transaction (R122 (c), R129). -/
def State.txWrite (s : State) (p : List Byte) : Option (TxStatus × List Byte) × State :=
  (writeResult s.writeAnswer p, s.writeAsked)

/-! ## How a command ends (00_scope.md R13, 60_exceptions.md R154) -/

/-- The result code of an error (60_exceptions.md R151). -/
def ErrorKind.code : ErrorKind → Byte
  | .deviceNotReady => 0x01#8
  | .invalidIndex _ => 0x02#8
  | .transportWriteFailed _ => 0x03#8
  | .illegalCommand => 0x04#8

/-- `TXCODE`: the transport's failure status for TransportWriteFailed, and 0 otherwise (30_encoding.md R66). -/
def ErrorKind.txcode : ErrorKind → BitVec 32
  | .deviceNotReady => 0
  | .invalidIndex _ => 0
  | .transportWriteFailed code => code
  | .illegalCommand => 0

/-- The response of a command that ends in an error: `DATA = 0` (30_encoding.md R66). -/
def ErrorKind.response (e : ErrorKind) : Response := ⟨e.code, 0, e.txcode⟩

/-- The response of a command that succeeds (00_scope.md R13). -/
def okResponse (data : BitVec 24) : Response := ⟨0x00#8, data, 0⟩

/-- The block hands a response to the command port. -/
def State.respond (s : State) (r : Response) : State := { s with response := some r }

/-- The state in which a command has succeeded (00_scope.md R13). -/
def State.succeed (s : State) (data : BitVec 24) : State := s.respond (okResponse data)

/-- The state in which a command has ended in an error: the one way an error is taken. It is reported in the command's
response; it saves no state, changes no mode and jumps nowhere, and writes nothing the command has not written before
(00_scope.md R13, 60_exceptions.md R154). There is no return from an error: the next command is accepted as after any
other (R155). -/
def State.fail (s : State) (e : ErrorKind) : State := s.respond e.response

/-- `return OK(data)` (00_scope.md R13). -/
def returnOk (data : BitVec 24) (s : State) : Outcome := .next (s.succeed data)

/-- `raise e` (00_scope.md R13). -/
def raise (e : ErrorKind) (s : State) : Outcome := .next (s.fail e)

end Sys2Proof.Machine
end

