-- ==== Sys2Proof/Machine/LedStore.lean ====
section
/-! DEFINITION. The LED State Store commands (42_led_state_store.md). -/

namespace Sys2Proof.Machine

/-- `set_led(index, r, g, b)` (R100). -/
def execSetLed (idx : BitVec 16) (r g b : Byte) (s : State) : Outcome :=
  if h : (indexOperand idx).toNat < Config.stripLen then
    returnOk 0 (s.setLed (indexOperand idx).toNat h (ledOperand r g b))
  else raise (.invalidIndex (indexOperand idx)) s

/-- `set_all_leds(r, g, b)` (R103). -/
def execSetAllLeds (r g b : Byte) (s : State) : Outcome :=
  returnOk 0 (s.fillStrip (ledOperand r g b))

/-- `clear_leds()` (R105). -/
def execClearLeds (s : State) : Outcome :=
  returnOk 0 (s.fillStrip (ledOperand 0 0 0))

/-- `get_led(index)` (R107). -/
def execGetLed (idx : BitVec 16) (s : State) : Outcome :=
  if h : (indexOperand idx).toNat < Config.stripLen then
    returnOk (s.led (indexOperand idx).toNat h).data s
  else raise (.invalidIndex (indexOperand idx)) s

end Sys2Proof.Machine
end

