-- ==== Sys2Proof/Machine/BitEncoder.lean ====
section
/-! DEFINITION. The Bit Encoder and `enc_bit` (40_bit_encoder.md). -/

namespace Sys2Proof.Machine

/-- `EncBit` (R80): pure, one symbol per logical bit. -/
def encBit (b : Bool) : Byte := if b then Config.symOne else Config.symZero

/-- `enc_bit(bit)` (R81): writes no state and does not use the transport. -/
def execEncBit (bit : BitVec 1) (s : State) : Outcome :=
  returnOk (symbolData (encBit (bitOperand bit))) s

end Sys2Proof.Machine
end

