-- ==== Sys2Proof/Machine/FrameEncoder.lean ====
section
/-! DEFINITION. The Frame Encoder (41_frame_encoder.md, 30_encoding.md R71). -/

namespace Sys2Proof.Machine

/-- The 24-bit GRB word of a record (R90, 20_memory.md R43 (a)). -/
def Led.grbWord (c : Led) : BitVec 24 :=
  (c.g.setWidth 24 <<< 16) ||| (c.r.setWidth 24 <<< 8) ||| c.b.setWidth 24

/-- The 24 symbols of a record, word bit 23 first (R90, 20_memory.md R43 (b)). -/
def Led.symbols (c : Led) : List Byte :=
  (List.range Config.symsPerLed).map fun k => encBit (c.grbWord.getLsbD (23 - k))

/-- The reset gap (30_encoding.md R70). -/
def resetGap : List Byte := List.replicate Config.gapLen Config.gapByte

/-- `FrameEncode` (R90): the symbols of every record in strip order, then the reset gap. -/
def frameEncode (strip : Vector Led Config.stripLen) : List Byte :=
  strip.toList.flatMap Led.symbols ++ resetGap

end Sys2Proof.Machine
end

