-- ==== Sys2Proof/Machine/TransmitDriver.lean ====
section
/-! DEFINITION. The Transmit Driver commands (43_transmit_driver.md). -/

namespace Sys2Proof.Machine

/-- `init()` (R120, R121). It completes whatever the transport answers. -/
def execInit (s : State) : Outcome :=
  let (ready, asked) := s.txReady
  .next (if ready then ((asked.txConfigure asked.txcfg).setInitialized true).succeed 0
    else asked.fail .deviceNotReady)

/-- `deinit()` (R125): no transport call. -/
def execDeinit (s : State) : Outcome := returnOk 0 (s.setInitialized false)

/-- The end of `update` once `TxWrite` has returned (R128): one event of TX_LOG, then the response. -/
def finishUpdate (payload : List Byte) (status : TxStatus) (emitted : List Byte) (s : State) : Outcome :=
  let logged := s.appendTxLog ⟨payload, status, emitted⟩
  match status with
  | .ok => returnOk 0 logged
  | .fail code => raise (.transportWriteFailed code) logged

/-- `update` after both readiness checks (R128): SYMBUF regenerated in full, then one transaction. A write that never
returns leaves the command uncompleted (R122 (d), 60_exceptions.md R165). Log entry 6. -/
def transmit (s : State) : Outcome :=
  let encoded := s.memWrite 0 (frameEncode s.strip)
  let payload := encoded.memRead 0 Config.bufLen
  match encoded.txWrite payload with
  | (some (status, emitted), written) => finishUpdate payload status emitted written
  | (none, _) => .fault .txWriteNeverReturns

/-- `update()` (R128): INITIALIZED is checked before the readiness draw, and the transport is not queried when it is 0
(60_exceptions.md R153). -/
def execUpdate (s : State) : Outcome :=
  if s.initialized then
    let (ready, asked) := s.txReady
    if ready then transmit asked else raise .deviceNotReady asked
  else raise .deviceNotReady s

end Sys2Proof.Machine
end

