-- ==== Sys2Proof/Machine/Dispatch.lean ====
section
/-! DEFINITION. The meaning of every command, one arm per constructor. -/

namespace Sys2Proof.Machine

def exec (i : Instr) (s : State) : Host.Outcome State Fault Refusal :=
  match i with
  | .init => Sys2Proof.Machine.execInit s
  | .deinit => Sys2Proof.Machine.execDeinit s
  | .setLed idx r g b => Sys2Proof.Machine.execSetLed idx r g b s
  | .setAllLeds r g b => Sys2Proof.Machine.execSetAllLeds r g b s
  | .clearLeds => Sys2Proof.Machine.execClearLeds s
  | .getLed idx => Sys2Proof.Machine.execGetLed idx s
  | .encBit bit => Sys2Proof.Machine.execEncBit bit s
  | .update => Sys2Proof.Machine.execUpdate s

end Sys2Proof.Machine
end

