-- ==== Sys2Proof/Machine/Port.lean ====
section
/-! DEFINITION. The command port (20_memory.md R47, R48, R52; 60_exceptions.md R154, R160): which host is served, how its
next command word is consumed, and how the response goes back to it. -/

namespace Sys2Proof.Machine

/-- The positions, counted from `k`, of the hosts that have a command to issue. -/
def readyHostsFrom : Nat → List CommandHost → List Nat
  | _, [] => []
  | k, h :: hs => if h.commands.isEmpty then readyHostsFrom (k + 1) hs else k :: readyHostsFrom (k + 1) hs

/-- The positions of the hosts that have a command to issue. -/
def readyHosts (hs : List CommandHost) : List Nat := readyHostsFrom 0 hs

/-- The next draw of the port's turn: the next one fixed in the state, or else a free value. -/
def State.turnAnswer (s : State) : Nat :=
  match s.turns with
  | n :: _ => n
  | [] => Config.freeTurn s.turnDraws

/-- The state after a turn was drawn. -/
def State.turnTaken (s : State) : State := { s with turns := s.turns.tail, turnDraws := s.turnDraws + 1 }

/-- Which host the port serves next: the only one with a command, or, of several, any one, by a draw (R48). None if no
host has a command: the block waits (70_reset_and_hazards.md R171). -/
def State.arbitrate (s : State) : Option (Nat × State) :=
  match readyHosts s.hosts with
  | [] => none
  | [k] => some (k, s)
  | k :: j :: ks => some ((k :: j :: ks).getD (s.turnAnswer % (ks.length + 2)) k, s.turnTaken)

/-- The port accepts the next command: the served host's position, its word, and the state with the word consumed
(R52). -/
def State.accept (s : State) : Option (Nat × CmdWord × State) :=
  match s.arbitrate with
  | none => none
  | some (k, served) =>
    match served.hosts[k]? with
    | some ⟨w :: ws, rs⟩ => some (k, w, { served with hosts := served.hosts.set k ⟨ws, rs⟩ })
    | _ => none

/-- The response goes to the host that issued the command (R154), and is kept nowhere in the block (10_state.md R28). -/
def State.deliver (s : State) (k : Nat) : State :=
  match s.response with
  | some r =>
    { s with
      hosts := s.hosts.modify k (fun h => { h with responses := h.responses ++ [r] })
      response := none }
  | none => s

/-- The outcome of a command, with its response delivered. -/
def deliverOutcome (k : Nat) (o : Outcome) : Outcome :=
  match o with
  | .next t => .next (t.deliver k)
  | .fault f => .fault f
  | .refused r => .refused r

/-- A word that is no legal command (30_encoding.md R65): it completes with IllegalCommand and changes nothing else. -/
def execIllegal (_why : Reject) (s : State) : Outcome := raise .illegalCommand s

/-- A host's command list with a word put in front of it. -/
def issueFirst (w : CmdWord) : List CommandHost → List CommandHost
  | [] => [⟨[w], []⟩]
  | h :: hs => { h with commands := w :: h.commands } :: hs

/-- The port's turns with the first host served next: needed where another host has a command too. -/
def firstTurn (s : State) : List Nat :=
  match readyHosts s.hosts.tail with
  | [] => s.turns
  | _ :: _ => 0 :: s.turns

end Sys2Proof.Machine
end

