-- ==== Sys2Proof/Machine/Step.lean ====
section
/-! DEFINITION. One step: the port accepts one command word, the block runs it to its end, and its response goes to the
issuing host (20_memory.md R47). -/

namespace Sys2Proof.Machine

/-- The block runs one command word: the command it decodes to, or IllegalCommand (30_encoding.md R65, R67). -/
def runWord (w : CmdWord) (s : State) : Outcome :=
  match decode w with
  | .ok i => exec i s
  | .error e => execIllegal e s

/-- One step. With no command on the port the block waits, and nothing changes (70_reset_and_hazards.md R171). Log
entry 2. -/
def step (s : State) : Host.Outcome State Fault Refusal :=
  match s.accept with
  | none => .next s
  | some (k, w, accepted) => deliverOutcome k (runWord w accepted)

/-- The state with a table row's word as the next command on the port: the first host issues it before its other
commands, and is served next. Log entry 1. -/
def State.withFetchWord (s : State) (_nbits w : Nat) : State :=
  { s with hosts := issueFirst (BitVec.ofNat 48 w) s.hosts, turns := firstTurn s }

end Sys2Proof.Machine
end

