-- ==== Sys2Proof/Machine/Assembler.lean ====
section
/-! DEFINITION. The assembler syntax (30_encoding.md R68): from text to a statement, and from a statement to a command.
An operand that does not fit its field is an error, never truncated. Log entry 14. -/

namespace Sys2Proof.Machine

/-- The command of a statement whose operands pass the checks of R68. -/
def assemble (a : AsmLine) : Except AsmError Instr :=
  match a.check with
  | some e => .error e
  | none =>
    match a.mnemonic, a.operands with
    | .init, _ => .ok .init
    | .deinit, _ => .ok .deinit
    | .setLed, [i, r, g, b] =>
      .ok (.setLed (BitVec.ofNat 16 i) (BitVec.ofNat 8 r) (BitVec.ofNat 8 g) (BitVec.ofNat 8 b))
    | .setLed, _ => .error .wrongOperandCount
    | .setAllLeds, [r, g, b] => .ok (.setAllLeds (BitVec.ofNat 8 r) (BitVec.ofNat 8 g) (BitVec.ofNat 8 b))
    | .setAllLeds, _ => .error .wrongOperandCount
    | .clearLeds, _ => .ok .clearLeds
    | .getLed, [i] => .ok (.getLed (BitVec.ofNat 16 i))
    | .getLed, _ => .error .wrongOperandCount
    | .encBit, [b] => .ok (.encBit (BitVec.ofNat 1 b))
    | .encBit, _ => .error .wrongOperandCount
    | .update, _ => .ok .update

/-- The statement that stands for a command. -/
def disassemble : Instr → AsmLine
  | .init => ⟨.init, []⟩
  | .deinit => ⟨.deinit, []⟩
  | .setLed idx r g b => ⟨.setLed, [idx.toNat, r.toNat, g.toNat, b.toNat]⟩
  | .setAllLeds r g b => ⟨.setAllLeds, [r.toNat, g.toNat, b.toNat]⟩
  | .clearLeds => ⟨.clearLeds, []⟩
  | .getLed idx => ⟨.getLed, [idx.toNat]⟩
  | .encBit bit => ⟨.encBit, [bit.toNat]⟩
  | .update => ⟨.update, []⟩

/-! ## Text -/

/-- The spelling of a mnemonic (R63). -/
def mnemonicText : Mnemonic → List Char
  | .init => ['i', 'n', 'i', 't']
  | .deinit => ['d', 'e', 'i', 'n', 'i', 't']
  | .setLed => ['s', 'e', 't', '_', 'l', 'e', 'd']
  | .setAllLeds => ['s', 'e', 't', '_', 'a', 'l', 'l', '_', 'l', 'e', 'd', 's']
  | .clearLeds => ['c', 'l', 'e', 'a', 'r', '_', 'l', 'e', 'd', 's']
  | .getLed => ['g', 'e', 't', '_', 'l', 'e', 'd']
  | .encBit => ['e', 'n', 'c', '_', 'b', 'i', 't']
  | .update => ['u', 'p', 'd', 'a', 't', 'e']

/-- Every mnemonic (R63). -/
def mnemonics : List Mnemonic :=
  [.init, .deinit, .setLed, .setAllLeds, .clearLeds, .getLed, .encBit, .update]

/-- The mnemonic a text spells. -/
def mnemonicOfText (cs : List Char) : Option Mnemonic := mnemonics.find? fun m => mnemonicText m == cs

/-- A text without the spaces at its ends. -/
def trimSpaces (cs : List Char) : List Char :=
  ((cs.dropWhile (· == ' ')).reverse.dropWhile (· == ' ')).reverse

/-- The value of a decimal digit. -/
def decimalDigit (c : Char) : Option Nat :=
  if 48 ≤ c.toNat ∧ c.toNat ≤ 57 then some (c.toNat - 48) else none

/-- The value of a hexadecimal digit, in either case. -/
def hexDigit (c : Char) : Option Nat :=
  if 65 ≤ c.toNat ∧ c.toNat ≤ 70 then some (c.toNat - 55)
  else if 97 ≤ c.toNat ∧ c.toNat ≤ 102 then some (c.toNat - 87)
  else decimalDigit c

/-- Digits in a base, after what was read before them. -/
def digitsFrom (base : Nat) (digit : Char → Option Nat) : Nat → List Char → Option Nat
  | v, [] => some v
  | v, c :: cs =>
    match digit c with
    | some d => digitsFrom base digit (base * v + d) cs
    | none => none

/-- An unsigned integer, in decimal or as `0x` hex (R68). -/
def parseNumber (cs : List Char) : Option Nat :=
  match cs with
  | [] => none
  | ['0', 'x'] => none
  | '0' :: 'x' :: ds => digitsFrom 16 hexDigit 0 ds
  | ds => digitsFrom 10 decimalDigit 0 ds

/-- Numbers, or none if one of the texts is no number. -/
def parseNumbers : List (List Char) → Option (List Nat)
  | [] => some []
  | t :: ts =>
    match parseNumber (trimSpaces t), parseNumbers ts with
    | some n, some ns => some (n :: ns)
    | _, _ => none

/-- The texts between the commas. -/
def splitCommas : List Char → List (List Char)
  | [] => [[]]
  | c :: cs =>
    if c = ',' then [] :: splitCommas cs
    else
      match splitCommas cs with
      | t :: ts => (c :: t) :: ts
      | [] => [[c]]

/-- The operands between the parentheses, none if one of them is no number, whatever the others are (log entry 14). -/
def parseOperands (cs : List Char) : Option (List Nat) :=
  if trimSpaces cs = [] then some [] else parseNumbers (splitCommas cs)

/-- A statement's text: the mnemonic, then the operands in parentheses, separated by commas (R68). DESIGN CHOICE (log
entry 14): R68 gives no order of errors; here a text without its parentheses is refused first, then an unknown mnemonic, then
an operand that is no number, and only a statement that passes all three is checked for operands that do not fit. -/
def parseLine (text : List Char) : Except AsmError AsmLine :=
  let line := trimSpaces text
  let name := trimSpaces (line.takeWhile (· != '('))
  match line.dropWhile (· != '(') with
  | '(' :: rest =>
    match rest.dropWhile (· != ')') with
    | [')'] =>
      match mnemonicOfText name, parseOperands (rest.takeWhile (· != ')')) with
      | none, _ => .error .unknownMnemonic
      | some _, none => .error .malformedText
      | some m, some ns => .ok ⟨m, ns⟩
    | _ => .error .malformedText
  | _ => .error .malformedText

/-- From text to a command word: the errors of the text before those of the operands' number and sizes (DESIGN CHOICE, log
entry 14). -/
def assembleText (text : List Char) : Except AsmError CmdWord :=
  match parseLine text with
  | .error e => .error e
  | .ok a =>
    match assemble a with
    | .error e => .error e
    | .ok i => .ok (encode i)

end Sys2Proof.Machine
end

