-- ==== Sys2Proof/Machine/Line.lean ====
section
/-! DEFINITION. What the transmissions recorded in TX_LOG mean on the data line (43_transmit_driver.md R133 to R135,
70_reset_and_hazards.md R178, R181): levels per serial bit period, the derived durations, and what the LED chain takes
from a transaction. The block's rules depend on none of it, and none of it is state. Log entry 15. -/

namespace Sys2Proof.Machine

/-- The k-th serial bit sent of a byte, in the order the transport was configured for (20_memory.md R43 (c)). -/
def serialBit (cfg : TxConfig) (b : Byte) (k : Nat) : Bool :=
  match cfg.bitOrder with
  | .msbFirst => b.getLsbD (cfg.wordSize - 1 - k)
  | .lsbFirst => b.getLsbD k

/-- A serial bit of 1 drives the line high, a serial bit of 0 drives it low (R133). -/
def bitLevel (bit : Bool) : LineLevel := if bit then .high else .low

/-- The line's levels while one byte is sent, one per serial bit period (R133). -/
def byteLevels (cfg : TxConfig) (b : Byte) : List LineLevel :=
  (List.range cfg.wordSize).map fun k => bitLevel (serialBit cfg b k)

/-- The line's levels while a byte sequence is sent, each byte after the one before (20_memory.md R42), with no idle
bit period between bytes (R134, assumed by D18). -/
def lineLevels (cfg : TxConfig) (bytes : List Byte) : List LineLevel := bytes.flatMap (byteLevels cfg)

/-- The line's levels during a transaction: those of the bytes that left (R131). -/
def TxEvent.levels (e : TxEvent) : List LineLevel := lineLevels Config.txcfg e.emitted

/-- The serial bit period in ns (R133, R181). -/
def bitPeriodNs (cfg : TxConfig) : Nat := 1000000000 / cfg.freqHz

/-- How long the line is high while a byte is sent, in ns (R181). -/
def highNs (cfg : TxConfig) (b : Byte) : Nat := (byteLevels cfg b).count .high * bitPeriodNs cfg

/-- How long the line is low while a byte is sent, in ns (R181). -/
def lowNs (cfg : TxConfig) (b : Byte) : Nat := (byteLevels cfg b).count .low * bitPeriodNs cfg

/-- How long a byte sequence takes on the line, in ns (R181). -/
def durationNs (cfg : TxConfig) (bytes : List Byte) : Nat := (lineLevels cfg bytes).length * bitPeriodNs cfg

/-- The logical bit a symbol stands for; the gap byte and any other byte stand for none (30_encoding.md R69, R72). -/
def symbolBit (sym : Byte) : Option Bool :=
  if sym = Config.symOne then some true else if sym = Config.symZero then some false else none

/-- A GRB word from its bits, bit 23 first. -/
def wordOfBits (bits : List Bool) : BitVec 24 :=
  bits.foldl (fun w bit => (w <<< 1) ||| (BitVec.ofBool bit).setWidth 24) 0

/-- The record a GRB word stands for (R135: 8 bits per channel, in the order G, R, B). -/
def Led.ofGrbWord (w : BitVec 24) : Led := ⟨w.extractLsb' 8 8, w.extractLsb' 16 8, w.extractLsb' 0 8⟩

/-- The record that chain LED `j` takes from the bytes on the line: each LED takes 24 protocol bits and passes the rest
downstream (R135). None where the line did not carry 24 symbols for it. -/
def chainLed (bytes : List Byte) (j : Nat) : Option Led :=
  let bits := ((bytes.drop (24 * j)).take 24).filterMap symbolBit
  if bits.length = 24 then some (Led.ofGrbWord (wordOfBits bits)) else none

/-- How long the line stays low after the last data symbol, in ns: the gap, and the idle time after the transaction if
the line rests low (R135, R178). -/
def lowAfterDataNs (idleNs : Nat) : Nat :=
  durationNs Config.txcfg resetGap + (if Config.idleLevel = .low then idleNs else 0)

/-- A transaction may latch its frame when the whole payload left and the line is then low for at least the LED's minimum
reset time (R135, R178). -/
def TxEvent.mayLatch (e : TxEvent) (idleNs : Nat) : Bool :=
  e.emitted == e.payload && decide (Config.tResetMinNs ≤ lowAfterDataNs idleNs)

end Sys2Proof.Machine
end

