-- ==== Sys2Proof/Safety.lean ====
section
/-! DEFINITION. The terms claims are stated in: the block's part of the state, runs of commands, well-formed records, the
invariant of every step, and the premise TRANSPORT_RETURNS (43_transmit_driver.md R122 (d)). -/

namespace Sys2Proof.Machine

/-- Two states with the same block state: STRIP, SYMBUF, INITIALIZED and TX_LOG (10_state.md R31). -/
def SameBlock (s t : State) : Prop :=
  t.strip = s.strip ∧ t.symbuf = s.symbuf ∧ t.initialized = s.initialized ∧ t.txLog = s.txLog

/-- The commands that write STRIP (10_state.md R21). -/
def writesStrip : Instr → Bool
  | .init => false
  | .deinit => false
  | .setLed .. => true
  | .setAllLeds .. => true
  | .clearLeds => true
  | .getLed _ => false
  | .encBit _ => false
  | .update => false

/-- Commands run one after another, each completing before the next is accepted (20_memory.md R47). -/
def execList : List Instr → State → Outcome
  | [], s => .next s
  | i :: is, s =>
    match exec i s with
    | .next t => execList is t
    | .fault f => .fault f
    | .refused r => .refused r

/-- In the run of commands from the state, no `init` succeeds: each is issued under a false readiness draw
(43_transmit_driver.md R120). -/
def NoInitSucceeds : List Instr → State → Prop
  | [], _ => True
  | i :: is, s => (i = .init → s.readyAnswer = false) ∧ ∀ t, exec i s = .next t → NoInitSucceeds is t

/-- The word completes with IllegalCommand in every state, changing nothing else (30_encoding.md R65). -/
def EndsIllegal (w : CmdWord) : Prop :=
  ∀ s : State, runWord w s = .next { s with response := some ⟨0x04#8, 0#24, 0#32⟩ }

/-- A TX_LOG event as the spec allows it (10_state.md R29, 43_transmit_driver.md R128, R130, R131): the payload is a frame,
a failure's code is not 0, and what was emitted is the payload on success and a part of its start on failure. -/
def TxEvent.Wf (e : TxEvent) : Prop :=
  (∃ strip, e.payload = frameEncode strip) ∧
    match e.status with
    | .ok => e.emitted = e.payload
    | .fail code => code ≠ 0 ∧ e.emitted <+: e.payload

/-- A response record as the spec allows it (30_encoding.md R66, 60_exceptions.md R151). -/
def Response.Wf (r : Response) : Prop :=
  (r.result = 0x00#8 ∧ r.txcode = 0) ∨
  (r.result = 0x01#8 ∧ r.data = 0 ∧ r.txcode = 0) ∨
  (r.result = 0x02#8 ∧ r.data = 0 ∧ r.txcode = 0) ∨
  (r.result = 0x03#8 ∧ r.data = 0 ∧ r.txcode ≠ 0) ∨
  (r.result = 0x04#8 ∧ r.data = 0 ∧ r.txcode = 0)

/-- What SYMBUF holds after the transactions of a log: the last frame, whole, or nothing (10_state.md R23, R24). -/
def lastFrame (log : List TxEvent) : Memory :=
  match log.getLast? with
  | none => []
  | some e => Memory.cells 0 e.payload

/-- What holds between commands, in every state that steps can reach. -/
structure State.Inv (s : State) : Prop where
  /-- SYMBUF is in canonical form, within `0 .. L-1` (20_memory.md R41). -/
  symbufWf : Memory.wf s.symbuf
  /-- SYMBUF holds the last frame handed to the transport, whole, or nothing written yet (10_state.md R23, R24). -/
  symbufHoldsLastFrame : s.symbuf = lastFrame s.txLog
  /-- Every transaction recorded is one the spec allows. -/
  eventsWf : ∀ e ∈ s.txLog, e.Wf
  /-- Every response a host has received is one the spec allows. -/
  responsesWf : ∀ h ∈ s.hosts, ∀ r ∈ h.responses, r.Wf
  /-- No response is under way between commands (20_memory.md R47). -/
  noResponsePending : s.response = none
  /-- An initialised block has handed TXCFG to the transport (43_transmit_driver.md R120). -/
  configured : s.initialized = true → s.transport.config = some s.txcfg

/-- What the transport does with the write that comes after `j` further ones. -/
def State.writeAnswerAt (s : State) (j : Nat) : WriteAnswer :=
  (s.transport.writeAnswers[j]?).getD (freeWriteAnswer (s.transport.writeCalls + j))

/-- The premise TRANSPORT_RETURNS for the next `k` writes (43_transmit_driver.md R122 (d), D43). -/
def State.transportReturns (s : State) (k : Nat) : Prop := ∀ j < k, s.writeAnswerAt j ≠ .neverReturns

end Sys2Proof.Machine
end

