-- ==== Sys2Proof/Certificates/Slice0/Obligations.lean ====
section
/-! DEFINITION. The statements for the provers. Each cites the rule of spec/ it formalises. Where the spec marks a sentence
as `[derived: ...]`, the statement rests on that sentence and on no rule; where it marks one as `[decision: ... Dn]`, the
rule is the spec's own decision and is stated as the spec gives it. -/

open Sys2Proof Sys2Proof.Machine

/-! ## Reset and the hard-wired record -/

/-- R31: what reset leaves. STRIP_INIT = (0, 0, 0) is the spec's decision D9. SYMBUF is unspecified: each byte reads as a
free value (log entry 7), whatever it is. TXCFG is hard-wired (R25), its SPI_MODE open. -/
def Obligations.ResetLeavesTheSpecsValues : Prop :=
  (∀ (i : Nat) (h : i < 10), State.reset.strip[i] = ⟨0x00#8, 0x00#8, 0x00#8⟩) ∧
  (∀ k < 304, State.reset.symbufByte k = Config.symbufPowerOn k) ∧
  State.reset.initialized = false ∧
  State.reset.txcfg = { wordSize := 8, bitOrder := .msbFirst, spiMode := Config.spiMode, freqHz := 8000000,
                        lines := [.dataOut] } ∧
  State.reset.txLog = []

/-- R25: TXCFG's fields are fixed in every state, and no command writes one. -/
def Obligations.TxcfgIsHardwired : Prop :=
  (∀ s : State, s.txcfg.wordSize = 8 ∧ s.txcfg.bitOrder = .msbFirst ∧ s.txcfg.spiMode = Config.spiMode ∧
    s.txcfg.freqHz = 8000000 ∧ s.txcfg.lines = [.dataOut]) ∧
  (∀ (i : Instr) (s t : State), exec i s = .next t → t.txcfg = s.txcfg)

/-! ## The commands: encoding, effect, and everything they leave unchanged -/

/-- R120 (the spec's decision D12): `init`. Every field not named in the next state is unchanged. -/
def Obligations.InitQueriesConfiguresAndMarksInitialized : Prop :=
  (∀ w : CmdWord, w &&& 0xFFFFFFFFFFFF#48 = 0x010000000000#48 → decode w = .ok .init) ∧
  (∀ w : CmdWord, w.extractLsb' 40 8 = 0x01#8 → w &&& 0xFFFFFFFFFFFF#48 ≠ 0x010000000000#48 → EndsIllegal w) ∧
  (∀ s : State, s.readyAnswer = true →
    exec .init s = .next { s with
      initialized := true
      response := some ⟨0x00#8, 0#24, 0#32⟩
      transport := { s.transport with
        readyAnswers := s.transport.readyAnswers.tail
        readyQueries := s.transport.readyQueries + 1
        config := some s.txcfg
        configureCalls := s.transport.configureCalls + 1 } }) ∧
  (∀ s : State, s.readyAnswer = false →
    exec .init s = .next { s with
      response := some ⟨0x01#8, 0#24, 0#32⟩
      transport := { s.transport with
        readyAnswers := s.transport.readyAnswers.tail
        readyQueries := s.transport.readyQueries + 1 } })

/-- R121: the configuration record a successful `init` hands to the transport. -/
def Obligations.InitHandsTheConfigurationRequest : Prop :=
  ∀ s : State, s.readyAnswer = true → ∃ t, exec .init s = .next t ∧
    t.transport.config = some { wordSize := 8, bitOrder := .msbFirst, spiMode := Config.spiMode, freqHz := 8000000,
                                lines := [.dataOut] }

/-- R125 (the spec's decision D13): `deinit`. It makes no transport call; every `update` after it raises DeviceNotReady until
the next `init` that succeeds. -/
def Obligations.DeinitOnlyClearsInitialized : Prop :=
  (∀ w : CmdWord, w &&& 0xFFFFFFFFFFFF#48 = 0x020000000000#48 → decode w = .ok .deinit) ∧
  (∀ w : CmdWord, w.extractLsb' 40 8 = 0x02#8 → w &&& 0xFFFFFFFFFFFF#48 ≠ 0x020000000000#48 → EndsIllegal w) ∧
  (∀ s : State, exec .deinit s =
    .next { s with initialized := false, response := some ⟨0x00#8, 0#24, 0#32⟩ }) ∧
  (∀ (s t u : State) (is : List Instr), exec .deinit s = .next t → NoInitSucceeds is t →
    execList is t = .next u →
    exec .update u = .next { u with response := some ⟨0x01#8, 0#24, 0#32⟩ })

/-- R100: `set_led`. -/
def Obligations.SetLedOverwritesOneRecord : Prop :=
  (∀ w : CmdWord, w &&& 0xFF0000000000#48 = 0x100000000000#48 → decode w =
    .ok (.setLed (w.extractLsb' 24 16) (w.extractLsb' 16 8) (w.extractLsb' 8 8) (w.extractLsb' 0 8))) ∧
  (∀ (idx : BitVec 16) (r g b : Byte) (s : State) (h : idx.toNat < 10), exec (.setLed idx r g b) s =
    .next { s with strip := s.strip.set idx.toNat ⟨r, g, b⟩ h, response := some ⟨0x00#8, 0#24, 0#32⟩ }) ∧
  (∀ (idx : BitVec 16) (r g b : Byte) (s : State), 10 ≤ idx.toNat → exec (.setLed idx r g b) s =
    .next { s with response := some ⟨0x02#8, 0#24, 0#32⟩ })

/-- R103: `set_all_leds`. -/
def Obligations.SetAllLedsOverwritesEveryRecord : Prop :=
  (∀ w : CmdWord, w &&& 0xFFFFFF000000#48 = 0x110000000000#48 → decode w =
    .ok (.setAllLeds (w.extractLsb' 16 8) (w.extractLsb' 8 8) (w.extractLsb' 0 8))) ∧
  (∀ w : CmdWord, w.extractLsb' 40 8 = 0x11#8 → w &&& 0xFFFFFF000000#48 ≠ 0x110000000000#48 → EndsIllegal w) ∧
  (∀ (r g b : Byte) (s : State), ∃ t, exec (.setAllLeds r g b) s = .next t ∧
    (∀ (i : Nat) (h : i < 10), t.strip[i] = ⟨r, g, b⟩) ∧
    t = { s with strip := t.strip, response := some ⟨0x00#8, 0#24, 0#32⟩ })

/-- R105: `clear_leds`. -/
def Obligations.ClearLedsZeroesEveryRecord : Prop :=
  (∀ w : CmdWord, w &&& 0xFFFFFFFFFFFF#48 = 0x120000000000#48 → decode w = .ok .clearLeds) ∧
  (∀ w : CmdWord, w.extractLsb' 40 8 = 0x12#8 → w &&& 0xFFFFFFFFFFFF#48 ≠ 0x120000000000#48 → EndsIllegal w) ∧
  (∀ s : State, ∃ t, exec .clearLeds s = .next t ∧
    (∀ (i : Nat) (h : i < 10), t.strip[i] = ⟨0x00#8, 0x00#8, 0x00#8⟩) ∧
    t = { s with strip := t.strip, response := some ⟨0x00#8, 0#24, 0#32⟩ })

/-- The sentence the spec derives in 42_led_state_store.md section 3: `clear_leds()` and `set_all_leds(0, 0, 0)` produce
the same next state and the same response. -/
def Obligations.ClearLedsIsSetAllLedsOfZero : Prop :=
  ∀ s : State, exec .clearLeds s = exec (.setAllLeds 0x00#8 0x00#8 0x00#8) s

/-- R107 (the spec's decision D7): `get_led`. -/
def Obligations.GetLedReturnsTheRecord : Prop :=
  (∀ w : CmdWord, w &&& 0xFF0000FFFFFF#48 = 0x130000000000#48 → decode w = .ok (.getLed (w.extractLsb' 24 16))) ∧
  (∀ w : CmdWord, w.extractLsb' 40 8 = 0x13#8 → w &&& 0xFF0000FFFFFF#48 ≠ 0x130000000000#48 → EndsIllegal w) ∧
  (∀ (idx : BitVec 16) (s : State) (h : idx.toNat < 10), exec (.getLed idx) s =
    .next { s with
      response := some
        ⟨0x00#8, s.strip[idx.toNat].r ++ s.strip[idx.toNat].g ++ s.strip[idx.toNat].b, 0#32⟩ }) ∧
  (∀ (idx : BitVec 16) (s : State), 10 ≤ idx.toNat → exec (.getLed idx) s =
    .next { s with response := some ⟨0x02#8, 0#24, 0#32⟩ })

/-- R81 (its exposure as a command is the spec's decision D7): `enc_bit`. -/
def Obligations.EncBitReturnsTheSymbol : Prop :=
  (∀ w : CmdWord, w &&& 0xFFFFFFFFFFFE#48 = 0x200000000000#48 → decode w = .ok (.encBit (w.extractLsb' 0 1))) ∧
  (∀ w : CmdWord, w.extractLsb' 40 8 = 0x20#8 → w &&& 0xFFFFFFFFFFFE#48 ≠ 0x200000000000#48 → EndsIllegal w) ∧
  (∀ s : State, exec (.encBit 1#1) s = .next { s with response := some ⟨0x00#8, 0x0000FC#24, 0#32⟩ }) ∧
  (∀ s : State, exec (.encBit 0#1) s = .next { s with response := some ⟨0x00#8, 0x0000C0#24, 0#32⟩ })

/-- R128 (the order of checks and the TX_LOG record are the spec's decisions D14, D15, D31): `update`, by what the transport
answers when its write returns. (A write that never returns is OnlyAWriteThatNeverReturnsStops.) -/
def Obligations.UpdateEncodesAndTransmitsOnce : Prop :=
  (∀ w : CmdWord, w &&& 0xFFFFFFFFFFFF#48 = 0x300000000000#48 → decode w = .ok .update) ∧
  (∀ w : CmdWord, w.extractLsb' 40 8 = 0x30#8 → w &&& 0xFFFFFFFFFFFF#48 ≠ 0x300000000000#48 → EndsIllegal w) ∧
  (∀ s : State, s.initialized = false →
    exec .update s = .next { s with response := some ⟨0x01#8, 0#24, 0#32⟩ }) ∧
  (∀ s : State, s.initialized = true → s.readyAnswer = false →
    exec .update s = .next { s with
      response := some ⟨0x01#8, 0#24, 0#32⟩
      transport := { s.transport with
        readyAnswers := s.transport.readyAnswers.tail
        readyQueries := s.transport.readyQueries + 1 } }) ∧
  (∀ (s : State) (n : Nat), s.initialized = true → s.readyAnswer = true → s.writeAnswer = .returned 0 n →
    exec .update s = .next { s with
      symbuf := Memory.writeBytes s.symbuf 0 (frameEncode s.strip)
      txLog := s.txLog ++ [⟨frameEncode s.strip, .ok, frameEncode s.strip⟩]
      response := some ⟨0x00#8, 0#24, 0#32⟩
      transport := { s.transport with
        readyAnswers := s.transport.readyAnswers.tail
        readyQueries := s.transport.readyQueries + 1
        writeAnswers := s.transport.writeAnswers.tail
        writeCalls := s.transport.writeCalls + 1 } }) ∧
  (∀ (s : State) (code : BitVec 32) (n : Nat), s.initialized = true → s.readyAnswer = true → code ≠ 0 →
    s.writeAnswer = .returned code n →
    exec .update s = .next { s with
      symbuf := Memory.writeBytes s.symbuf 0 (frameEncode s.strip)
      txLog := s.txLog ++ [⟨frameEncode s.strip, .fail code, (frameEncode s.strip).take n⟩]
      response := some ⟨0x03#8, 0#24, code⟩
      transport := { s.transport with
        readyAnswers := s.transport.readyAnswers.tail
        readyQueries := s.transport.readyQueries + 1
        writeAnswers := s.transport.writeAnswers.tail
        writeCalls := s.transport.writeCalls + 1 } })

/-! ## The encoders -/

/-- R80: the encoding function's two values. -/
def Obligations.EncBitMapsEachBitToItsSymbol : Prop := encBit true = 0xFC#8 ∧ encBit false = 0xC0#8

/-- The properties the spec derives in 40_bit_encoder.md section 1: injective, 6 and 2 high bits, every 1 bit above every
0 bit, and neither symbol the gap byte. -/
def Obligations.SymbolsAreDistinctHighRunsAndNoGapByte : Prop :=
  (∀ a b : Bool, encBit a = encBit b → a = b) ∧
  (List.range 8).countP (fun i => (encBit true).getLsbD i) = 6 ∧
  (List.range 8).countP (fun i => (encBit false).getLsbD i) = 2 ∧
  (∀ (b : Bool) (i j : Nat), i < 8 → j < 8 → (encBit b).getLsbD i = true → (encBit b).getLsbD j = false → j < i) ∧
  (∀ b : Bool, encBit b ≠ Config.gapByte)

/-- R71: one frame is 24 symbols per LED in index order, each LED's in the order G, R, B and each channel's from its bit 7
down to its bit 0, then the gap bytes, and nothing else. -/
def Obligations.FrameIsSymbolsInGrbOrderThenGap : Prop :=
  ∀ strip : Vector Led 10,
    (frameEncode strip).length = 24 * 10 + 64 ∧
    (∀ (i k : Nat) (h : i < 10), k < 8 →
      (frameEncode strip)[24 * i + k]? = some (if strip[i].g.getLsbD (7 - k) then 0xFC#8 else 0xC0#8)) ∧
    (∀ (i k : Nat) (h : i < 10), k < 8 →
      (frameEncode strip)[24 * i + 8 + k]? = some (if strip[i].r.getLsbD (7 - k) then 0xFC#8 else 0xC0#8)) ∧
    (∀ (i k : Nat) (h : i < 10), k < 8 →
      (frameEncode strip)[24 * i + 16 + k]? = some (if strip[i].b.getLsbD (7 - k) then 0xFC#8 else 0xC0#8)) ∧
    (∀ j < 64, (frameEncode strip)[24 * 10 + j]? = some 0x00#8)

/-- R90: the byte at `24*i + k` is the symbol of bit `23 - k` of the word `G<<16 | R<<8 | B` of record `i`, and the bytes after
the last LED are the gap; there is no other byte. -/
def Obligations.FrameByteIsSymbolOfGrbWordBit : Prop :=
  ∀ strip : Vector Led 10,
    (frameEncode strip).length = Config.bufLen ∧
    (∀ (i k : Nat) (h : i < 10), k < 24 → (frameEncode strip)[24 * i + k]? =
      some (encBit ((strip[i].g ++ strip[i].r ++ strip[i].b : BitVec 24).getLsbD (23 - k)))) ∧
    (∀ j < 64, (frameEncode strip)[24 * 10 + j]? = some 0x00#8)

/-- R91: the length of every frame. -/
def Obligations.FrameLengthIsL : Prop :=
  ∀ strip : Vector Led 10, (frameEncode strip).length = 24 * 10 + 64 ∧ (frameEncode strip).length = Config.bufLen

/-- The sentence the spec derives in 30_encoding.md section 5: each data byte is 0xFC or 0xC0, each gap byte is 0x00. -/
def Obligations.FrameBytesTellDataFromGap : Prop :=
  ∀ (strip : Vector Led 10) (k : Nat) (b : Byte), (frameEncode strip)[k]? = some b →
    (k < 24 * 10 → b = 0xFC#8 ∨ b = 0xC0#8) ∧ (24 * 10 ≤ k → b = 0x00#8)

/-- The sentence the spec derives in 41_frame_encoder.md section 2: different snapshots give different frames. -/
def Obligations.FrameEncodeIsInjective : Prop :=
  ∀ a b : Vector Led 10, frameEncode a = frameEncode b → a = b

/-- The strip states the spec derives in 41_frame_encoder.md section 2: all records 0, and all records 0xFF. -/
def Obligations.UniformStripsGiveUniformFrames : Prop :=
  frameEncode (Vector.replicate 10 ⟨0x00#8, 0x00#8, 0x00#8⟩) = List.replicate 240 0xC0#8 ++ List.replicate 64 0x00#8 ∧
  frameEncode (Vector.replicate 10 ⟨0xFF#8, 0xFF#8, 0xFF#8⟩) = List.replicate 240 0xFC#8 ++ List.replicate 64 0x00#8

/-! ## The store -/

/-- The read-after-write the spec derives in 42_led_state_store.md section 1: after `set_led(i, r, g, b)`, and any commands
that do not write STRIP, `get_led(i)` returns the triple; the other records keep their values. -/
def Obligations.GetLedReadsWhatSetLedWrote : Prop :=
  ∀ (idx : BitVec 16) (r g b : Byte) (between : List Instr) (s t u : State), idx.toNat < 10 →
    exec (.setLed idx r g b) s = .next t → (∀ i ∈ between, writesStrip i = false) → execList between t = .next u →
    exec (.getLed idx) u = .next { u with response := some ⟨0x00#8, r ++ g ++ b, 0#32⟩ } ∧
    ∀ (j : Nat) (h : j < 10), j ≠ idx.toNat → u.strip[j] = s.strip[j]

/-- R45: an index is valid exactly below N; any other is rejected with InvalidIndex, never clamped and never wrapped. -/
def Obligations.OutOfRangeIndexIsRejected : Prop :=
  ∀ (idx : BitVec 16) (r g b : Byte) (s : State), ∃ t u x y,
    exec (.setLed idx r g b) s = .next t ∧ t.response = some x ∧
    exec (.getLed idx) s = .next u ∧ u.response = some y ∧
    (idx.toNat < 10 → x.result = 0x00#8 ∧ y.result = 0x00#8) ∧
    (10 ≤ idx.toNat → x.result = 0x02#8 ∧ y.result = 0x02#8 ∧ t.strip = s.strip ∧ u.strip = s.strip)

/-- The store invariants of 42_led_state_store.md section 5: STRIP has exactly N records; only `set_led`, `set_all_leds` and `clear_leds` write it; a store command never
writes SYMBUF, INITIALIZED or TX_LOG and never calls the transport. (The sentence that the block adds no concurrency control is
not a statement about a step.) -/
def Obligations.StoreInvariants : Prop :=
  (∀ s : State, s.strip.toList.length = 10) ∧
  (∀ (i : Instr) (s t : State), exec i s = .next t →
    i.mnemonic ≠ .setLed → i.mnemonic ≠ .setAllLeds → i.mnemonic ≠ .clearLeds → t.strip = s.strip) ∧
  (∀ (i : Instr) (s t : State), exec i s = .next t →
    i.mnemonic = .setLed ∨ i.mnemonic = .setAllLeds ∨ i.mnemonic = .clearLeds ∨ i.mnemonic = .getLed →
    t.symbuf = s.symbuf ∧ t.initialized = s.initialized ∧ t.txLog = s.txLog ∧ t.transport = s.transport)

/-! ## Whole-machine rules over all commands -/

/-- R26 (the spec's decision D11): a successful `init` sets INITIALIZED, `deinit` clears it, no other command writes it, and
only `update` reads it. -/
def Obligations.OnlyInitAndDeinitWriteInitialized : Prop :=
  (∀ (s t : State), exec .init s = .next t → s.readyAnswer = true → t.initialized = true) ∧
  (∀ (s t : State), exec .init s = .next t → s.readyAnswer = false → t.initialized = s.initialized) ∧
  (∀ (s t : State), exec .deinit s = .next t → t.initialized = false) ∧
  (∀ (i : Instr) (s t : State), exec i s = .next t → i ≠ .init → i ≠ .deinit → t.initialized = s.initialized) ∧
  (∀ s : State, s.initialized = false → exec .update s = .next { s with response := some ⟨0x01#8, 0#24, 0#32⟩ }) ∧
  (∀ (i : Instr) (s t : State) (v : Bool), i ≠ .update → exec i s = .next t →
    ∃ u, exec i { s with initialized := v } = .next u ∧ { u with initialized := t.initialized } = t)

/-- R29 (the spec's decision D31): TX_LOG is append-only, only an `update` that reaches `TxWrite` appends, one event per call,
what was emitted is a prefix of the payload, and no command reads the log. -/
def Obligations.TxLogIsAppendOnlyAndUnread : Prop :=
  ∀ (i : Instr) (s t : State), exec i s = .next t → ∃ new : List TxEvent,
    t.txLog = s.txLog ++ new ∧
    t.transport.writeCalls = s.transport.writeCalls + new.length ∧ new.length ≤ 1 ∧
    (new ≠ [] → i = .update) ∧
    (∀ e ∈ new, e.emitted <+: e.payload) ∧
    (∀ log : List TxEvent, exec i { s with txLog := log } = .next { t with txLog := log ++ new })

/-- The sentences the spec derives in 10_state.md section 2: SYMBUF is written only by an `update` that passes its readiness
check, and then holds the whole frame; no command's outcome depends on what SYMBUF held before. The bytes stored are the
frame's, from offset 0 on; every byte outside them reads as before. -/
def Obligations.SymbufIsWrittenWholeByUpdateOnly : Prop :=
  (∀ (i : Instr) (s t : State), exec i s = .next t → i ≠ .update → ∀ a, t.symbufByte a = s.symbufByte a) ∧
  (∀ s t : State, exec .update s = .next t → s.initialized = false ∨ s.readyAnswer = false →
    ∀ a, t.symbufByte a = s.symbufByte a) ∧
  (∀ s t : State, exec .update s = .next t → s.initialized = true → s.readyAnswer = true →
    (∀ k b, (frameEncode s.strip)[k]? = some b → t.symbufByte k = b) ∧
    (∀ a, (frameEncode s.strip).length ≤ a → t.symbufByte a = s.symbufByte a)) ∧
  (∀ (i : Instr) (s t : State) (m : Memory), exec i s = .next t →
    ∃ u, exec i { s with symbuf := m } = .next u ∧ { u with symbuf := t.symbuf } = t)

/-- R151 (the spec's decision D6): the result codes, and that no command word ever returns another. -/
def Obligations.ResultCodesAreTheFiveOfTheTable : Prop :=
  (okResponse 0).result = 0x00#8 ∧
  ErrorKind.deviceNotReady.response.result = 0x01#8 ∧
  (∀ i, (ErrorKind.invalidIndex i).response.result = 0x02#8) ∧
  (∀ c, (ErrorKind.transportWriteFailed c).response.result = 0x03#8) ∧
  ErrorKind.illegalCommand.response.result = 0x04#8 ∧
  (∀ (w : CmdWord) (s t : State), runWord w s = .next t →
    ∃ x, t.response = some x ∧ x.result.toNat ≤ 4)

/-- The table the spec derives in 60_exceptions.md section 1: the results a command with a legal word can return. -/
def Obligations.CommandsReturnOnlyTheirResults : Prop :=
  ∀ (i : Instr) (s t : State), exec i s = .next t → ∃ x, t.response = some x ∧
    x.result ∈ (match i.mnemonic with
      | .init => [0x00#8, 0x01#8]
      | .deinit => [0x00#8]
      | .setLed => [0x00#8, 0x02#8]
      | .setAllLeds => [0x00#8]
      | .clearLeds => [0x00#8]
      | .getLed => [0x00#8, 0x02#8]
      | .encBit => [0x00#8]
      | .update => [0x00#8, 0x01#8, 0x03#8])

/-- R66 (the spec's decision D5): every command that completes, legal or not, returns one response record; DATA is the
record's triple for a successful `get_led`, the symbol for `enc_bit`, and 0 in every other case; TXCODE is the transport's
failure status when the result is TransportWriteFailed and 0 otherwise. -/
def Obligations.EveryCommandReturnsOneResponseRecord : Prop :=
  (∀ (w : CmdWord) (s t : State), runWord w s = .next t → ∃ x, t.response = some x ∧
    (x.result ≠ 0x03#8 → x.txcode = 0) ∧
    (x.result = 0x03#8 → ∃ n, s.writeAnswer = .returned x.txcode n) ∧
    ((∀ idx, decode w = .ok (.getLed idx) → x.result ≠ 0x00#8) → (∀ b, decode w ≠ .ok (.encBit b)) → x.data = 0)) ∧
  (∀ (idx : BitVec 16) (s : State) (h : idx.toNat < 10), ∃ t x, exec (.getLed idx) s = .next t ∧ t.response = some x ∧
    x.data.extractLsb' 16 8 = s.strip[idx.toNat].r ∧ x.data.extractLsb' 8 8 = s.strip[idx.toNat].g ∧
    x.data.extractLsb' 0 8 = s.strip[idx.toNat].b) ∧
  (∀ (bit : BitVec 1) (s : State), ∃ t x, exec (.encBit bit) s = .next t ∧ t.response = some x ∧
    x.data = (encBit (bit == 1#1)).setWidth 24)

/-- R153 (the spec's decision D33): decoding comes before any operand check or transport call; within `update`, INITIALIZED
is checked before the readiness draw; a write is reached only after every earlier check; no command can raise both InvalidIndex
and DeviceNotReady. -/
def Obligations.ErrorsAreCheckedInPriorityOrder : Prop :=
  (∀ (w : CmdWord) (e : Reject) (s : State), decode w = .error e →
    runWord w s = .next { s with response := some ⟨0x04#8, 0#24, 0#32⟩ }) ∧
  (∀ s : State, s.initialized = false → ∃ t, exec .update s = .next t ∧ t.transport = s.transport ∧
    t.response = some ⟨0x01#8, 0#24, 0#32⟩) ∧
  (∀ s : State, s.initialized = true → s.readyAnswer = false → ∃ t, exec .update s = .next t ∧
    t.transport.writeCalls = s.transport.writeCalls ∧ t.response = some ⟨0x01#8, 0#24, 0#32⟩) ∧
  (∀ (i : Instr) (s t : State) (code : BitVec 32), exec i s = .next t → t.response = some ⟨0x03#8, 0#24, code⟩ →
    i = .update ∧ s.initialized = true ∧ s.readyAnswer = true) ∧
  (∀ (i : Instr) (s t s' t' : State) (x x' : Response), exec i s = .next t → t.response = some x →
    exec i s' = .next t' → t'.response = some x' → x.result = 0x01#8 → x'.result ≠ 0x02#8)

/-- 60_exceptions.md section 3 (the spec's decision D34), the clause on state: an error other than TransportWriteFailed changes
no block state. -/
def Obligations.ErrorsBeforeTheWriteChangeNoBlockState : Prop :=
  ∀ (w : CmdWord) (s t : State) (x : Response), runWord w s = .next t → t.response = some x →
    x.result ≠ 0x00#8 → x.result ≠ 0x03#8 → SameBlock s t

/-- The table the spec derives in 43_transmit_driver.md section 5: what each outcome of `update` leaves. -/
def Obligations.UpdateOutcomesLeaveWhatTheTableSays : Prop :=
  ∀ (s t : State) (x : Response), exec .update s = .next t → t.response = some x →
    t.strip = s.strip ∧ t.initialized = s.initialized ∧
    (x.result = 0x01#8 → t.symbuf = s.symbuf ∧ t.txLog = s.txLog) ∧
    (x.result = 0x03#8 → t.memRead 0 304 = frameEncode s.strip ∧
      ∃ e, t.txLog = s.txLog ++ [e] ∧ e.payload = frameEncode s.strip ∧ e.status = .fail x.txcode ∧
        e.emitted <+: e.payload) ∧
    (x.result = 0x00#8 → t.memRead 0 304 = frameEncode s.strip ∧
      t.txLog = s.txLog ++ [⟨frameEncode s.strip, .ok, frameEncode s.strip⟩])

/-- R131 (the spec's decision D16): on OK the whole payload left; on FAIL a prefix of it did, and every prefix can occur. -/
def Obligations.FailedWritesEmitAnyPrefix : Prop :=
  (∀ (n : Nat) (p : List Byte), writeResult (.returned 0 n) p = some (.ok, p)) ∧
  (∀ (code : BitVec 32) (n : Nat) (p : List Byte), code ≠ 0 →
    ∃ em, em <+: p ∧ writeResult (.returned code n) p = some (.fail code, em)) ∧
  (∀ (code : BitVec 32) (p em : List Byte), code ≠ 0 → em <+: p →
    ∃ n, writeResult (.returned code n) p = some (.fail code, em))

/-- R130 (the spec's decision D32): the transport's failure status, any nonzero value, reaches the response's TXCODE and the
event's status unchanged. -/
def Obligations.TransportStatusIsPassedThrough : Prop :=
  ∀ (s : State) (code : BitVec 32) (n : Nat), s.initialized = true → s.readyAnswer = true → code ≠ 0 →
    s.writeAnswer = .returned code n → ∃ t x e, exec .update s = .next t ∧ t.response = some x ∧ x.txcode = code ∧
      t.txLog.getLast? = some e ∧ e.status = .fail code

/-- R172: before an `init` that returns OK, every `update` raises DeviceNotReady, whatever else is issued; the store commands
and `enc_bit` need no `init`; an `init`, any store commands, then an `update` is a valid sequence. -/
def Obligations.UpdateNeedsASuccessfulInit : Prop :=
  (∀ (is : List Instr) (s t : State), s.initialized = false → NoInitSucceeds is s → execList is s = .next t →
    exec .update t = .next { t with response := some ⟨0x01#8, 0#24, 0#32⟩ }) ∧
  (∀ (is : List Instr) (s t u : State) (n : Nat), exec .init s = .next t → s.readyAnswer = true →
    (∀ i ∈ is, i.mnemonic ∈ [.setLed, .setAllLeds, .clearLeds, .getLed]) → execList is t = .next u →
    u.readyAnswer = true → u.writeAnswer = .returned 0 n →
    ∃ v, exec .update u = .next v ∧ v.response = some ⟨0x00#8, 0#24, 0#32⟩) ∧
  (∀ (idx : BitVec 16) (r g b : Byte) (bit : BitVec 1) (s : State), s.initialized = false → idx.toNat < 10 →
    ∀ i ∈ [Instr.setLed idx r g b, .setAllLeds r g b, .clearLeds, .getLed idx, .encBit bit],
      ∃ t x, exec i s = .next t ∧ t.response = some x ∧ x.result = 0x00#8)

/-- What the spec derives in 70_reset_and_hazards.md section 2: the first successful `update` after reset, with only an `init`
before it, sends 240 symbols of 0 and the gap. It rests on STRIP_INIT = 0 (D9; log entry 8). -/
def Obligations.FirstUpdateAfterResetSendsBlack : Prop :=
  ∀ (s t u : State), SameBlock State.reset s → exec .init s = .next t → t.initialized = true →
    exec .update t = .next u → u.response = some ⟨0x00#8, 0#24, 0#32⟩ →
    u.txLog = [⟨List.replicate 240 0xC0#8 ++ List.replicate 64 0x00#8, .ok,
      List.replicate 240 0xC0#8 ++ List.replicate 64 0x00#8⟩]

/-- What the spec derives in 20_memory.md section 3: every command but `update` is idempotent, `init` under equal readiness
draws; an `update` that reaches the transport adds one event each time. -/
def Obligations.EveryCommandButUpdateIsIdempotent : Prop :=
  (∀ (i : Instr) (s t : State), i ≠ .update → (i = .init → t.readyAnswer = s.readyAnswer) → exec i s = .next t →
    ∃ u, exec i t = .next u ∧ SameBlock t u ∧ u.response = t.response) ∧
  (∀ (s t : State), s.initialized = true → s.readyAnswer = true → exec .update s = .next t →
    t.txLog.length = s.txLog.length + 1)

/-- 43_transmit_driver.md section 4, a corner case of `update`: two `update`s with no store command between them send
identical payloads. -/
def Obligations.UpdatesWithoutStoresSendEqualPayloads : Prop :=
  ∀ (between : List Instr) (s t u v : State) (a b : TxEvent), exec .update s = .next t → t.txLog = s.txLog ++ [a] →
    (∀ i ∈ between, writesStrip i = false) → execList between t = .next u →
    exec .update u = .next v → v.txLog = u.txLog ++ [b] → a.payload = b.payload

/-- The frame of every command: a command never touches the hosts, the port's turns or, but for `init` and `update`, the
transport; and it answers a next state or, for `update` alone, the one fault. Derived from R47 and R165's sections for what
the block does. The model's choices in it: that the hosts' lists and the port's turns stand in the state (log entries 1
and 3, DESIGN CHOICE), so that there is a frame on `hosts`, `turns` and `turnDraws` to state, and that the stuck `update` is
written as a fault (log entry 6, DESIGN CHOICE). -/
def Obligations.CommandsLeaveHostsAndTurnsAlone : Prop :=
  ∀ (i : Instr) (s : State), (∃ t, exec i s = .next t ∧ t.hosts = s.hosts ∧ t.turns = s.turns ∧
      t.turnDraws = s.turnDraws ∧ (i ≠ .init → i ≠ .update → t.transport = s.transport)) ∨
    (i = .update ∧ exec i s = .fault .txWriteNeverReturns)

/-! ## Decoding -/

/-- R64 (the spec's decision D3): a word decodes to a command of a row exactly when it selects that row. -/
def Obligations.DecodeFollowsTheOpcodeMap : Prop :=
  ∀ (w : CmdWord) (m : Mnemonic), (∃ i, decode w = .ok i ∧ i.mnemonic = m) ↔
    w &&& (match m with
      | .init => 0xFFFFFFFFFFFF#48
      | .deinit => 0xFFFFFFFFFFFF#48
      | .setLed => 0xFF0000000000#48
      | .setAllLeds => 0xFFFFFF000000#48
      | .clearLeds => 0xFFFFFFFFFFFF#48
      | .getLed => 0xFF0000FFFFFF#48
      | .encBit => 0xFFFFFFFFFFFE#48
      | .update => 0xFFFFFFFFFFFF#48) =
    (match m with
      | .init => 0x010000000000#48
      | .deinit => 0x020000000000#48
      | .setLed => 0x100000000000#48
      | .setAllLeds => 0x110000000000#48
      | .clearLeds => 0x120000000000#48
      | .getLed => 0x130000000000#48
      | .encBit => 0x200000000000#48
      | .update => 0x300000000000#48)

/-- R65 (the spec's decision D4): every reserved opcode, and every word that selects no row of the opcode map, completes with
IllegalCommand in every state: it changes no state, makes no transport call and appends nothing to TX_LOG. -/
def Obligations.ReservedAndIllegalWordsEndIllegal : Prop :=
  (∀ w : CmdWord, (w.extractLsb' 40 8).toNat = 0 ∨
      (0x03 ≤ (w.extractLsb' 40 8).toNat ∧ (w.extractLsb' 40 8).toNat ≤ 0x0F) ∨
      (0x14 ≤ (w.extractLsb' 40 8).toNat ∧ (w.extractLsb' 40 8).toNat ≤ 0x1F) ∨
      (0x21 ≤ (w.extractLsb' 40 8).toNat ∧ (w.extractLsb' 40 8).toNat ≤ 0x2F) ∨
      (0x31 ≤ (w.extractLsb' 40 8).toNat) → EndsIllegal w) ∧
  (∀ w : CmdWord, (∀ row ∈ opcodeMap, w &&& row.mask ≠ row.pattern) → EndsIllegal w)

/-- What the spec derives in 30_encoding.md section 2: a word selects at most one row, and every word has exactly one
outcome. -/
def Obligations.EveryWordSelectsAtMostOneRow : Prop :=
  (∀ (w : CmdWord), ∀ x ∈ opcodeMap, ∀ y ∈ opcodeMap, x.selects w = true → y.selects w = true → x = y) ∧
  (∀ w : CmdWord, (∃ i, decode w = .ok i) ∨ EndsIllegal w)

/-- Decoding the word of any command gives it back, with every operand at every value its field admits (30_encoding.md
sections 1 and 2: the field layout and the opcode map). -/
def Obligations.DecodeOfEncodeIsTheCommand : Prop := ∀ i : Instr, decode (encode i) = .ok i

/-- Each word has one meaning: a word that decodes to a command is that command's word (30_encoding.md sections 1, 2). -/
def Obligations.EncodeOfDecodeIsTheWord : Prop := ∀ (w : CmdWord) (i : Instr), decode w = .ok i → encode i = w

/-- Sanity: words the spec writes out in its examples decode to the commands it names (43 R120, R125, R128; 42 R100, R103,
R105, R107; 40 R81; 95_test_vectors.md B.5). -/
def Obligations.ExampleWordsDecodeToTheirCommands : Prop :=
  decode 0x010000000000#48 = .ok .init ∧
  decode 0x020000000000#48 = .ok .deinit ∧
  decode 0x100003123456#48 = .ok (.setLed 3 0x12 0x34 0x56) ∧
  decode 0x110000323232#48 = .ok (.setAllLeds 50 50 50) ∧
  decode 0x120000000000#48 = .ok .clearLeds ∧
  decode 0x130009000000#48 = .ok (.getLed 9) ∧
  decode 0x200000000001#48 = .ok (.encBit 1) ∧
  decode 0x300000000000#48 = .ok .update ∧
  decode 0x030000000000#48 = .error (.reservedOpcode 0x03) ∧
  decode 0x010000000100#48 = .error (.nonzeroField 0x01)

/-- An assembler statement assembles exactly when its operands are the mnemonic's and each fits its field, and then no
operand is truncated (30_encoding.md section 3). -/
def Obligations.AssemblerRefusesWhatDoesNotFit : Prop :=
  (∀ a : AsmLine, a.wellFormed = true ↔ ∃ i, assemble a = .ok i) ∧
  (∀ (a : AsmLine) (i : Instr), assemble a = .ok i → disassemble i = a) ∧
  (∀ v r g b : Nat, AsmLine.wellFormed ⟨.setLed, [v, r, g, b]⟩ = true ↔ v ≤ 65535 ∧ r ≤ 255 ∧ g ≤ 255 ∧ b ≤ 255) ∧
  (∀ v : Nat, AsmLine.wellFormed ⟨.encBit, [v]⟩ = true ↔ v = 0 ∨ v = 1)

/-! ## The step, the port and the hosts -/

/-- A step runs the command the accepted word decodes to, on the state with the word consumed, and delivers its response to
the issuing host; a word that decodes to none completes with IllegalCommand. Model's form of R47, R52, R65, R154: the port
and the delivery are log entries 1 and 12. -/
def Obligations.StepRunsTheDecodedCommand : Prop :=
  ∀ (s a : State) (k : Nat) (w : CmdWord), s.accept = some (k, w, a) →
    (∀ (i : Instr) (t : State), decode w = .ok i → exec i a = .next t → step s = .next (t.deliver k)) ∧
    (∀ (i : Instr) (f : Fault), decode w = .ok i → exec i a = .fault f → step s = .fault f) ∧
    (∀ e : Reject, decode w = .error e →
      step s = .next (State.deliver { a with response := some ⟨0x04#8, 0#24, 0#32⟩ } k))

/-- With no command on the port a step changes nothing: the block waits (R171's section). That nothing changes is the model's
choice (log entry 2). -/
def Obligations.StepWaitsWithoutACommand : Prop :=
  ∀ s : State, (∀ h ∈ s.hosts, h.commands = []) → step s = .next s

/-- One command at a time, each answered before the next is accepted (20_memory.md section 3): where some host has a command,
a step that completes takes the first command of exactly one host, appends exactly one response to that host's, and leaves
every other host alone. The hosts' lists and the emptied response field are the model's (log entries 1 and 12). -/
def Obligations.StepAnswersOneHostsFirstCommand : Prop :=
  ∀ (s t : State), (∃ h ∈ s.hosts, h.commands ≠ []) → step s = .next t →
    ∃ (k : Nat) (w : CmdWord) (ws : List CmdWord) (rs : List Response) (x : Response),
      s.hosts[k]? = some ⟨w :: ws, rs⟩ ∧ t.hosts[k]? = some ⟨ws, rs ++ [x]⟩ ∧
      t.hosts.length = s.hosts.length ∧ (∀ j, j ≠ k → t.hosts[j]? = s.hosts[j]?) ∧ t.response = none

/-- Every interleaving of whole commands is admitted (20_memory.md section 3): whichever host has a command, some turn of the
port serves it next, with its first command. The form of the turns is the model's (log entries 1 and 3). -/
def Obligations.AnyHostWithACommandCanBeServed : Prop :=
  ∀ (s : State) (k : Nat) (w : CmdWord) (ws : List CmdWord) (rs : List Response),
    s.hosts[k]? = some ⟨w :: ws, rs⟩ →
    ∃ n a, State.accept { s with turns := n :: s.turns } = some (k, w, a)

/-- 60_exceptions.md section 3 (the spec's decision D43): the block has exactly one way not to complete a command, a `TxWrite`
that never returns; no step is refused. That the stuck state is written as a fault is the model's choice (log entry 6). -/
def Obligations.OnlyAWriteThatNeverReturnsStops : Prop :=
  (∀ (s : State) (f : Fault), step s = .fault f ↔ f = .txWriteNeverReturns ∧
    ∃ k w a, s.accept = some (k, w, a) ∧ decode w = .ok .update ∧ a.initialized = true ∧ a.readyAnswer = true ∧
      a.writeAnswer = .neverReturns) ∧
  (∀ (s : State) (r : Refusal), step s ≠ .refused r)

/-- Progress under the premise TRANSPORT_RETURNS (43_transmit_driver.md section 1 (d)): if the next `k` writes return, `k`
steps complete from every state. The model's choices in it: a step with no command on the port completes with the same
state (log entry 2, DESIGN CHOICE), and the stop that the premise rules out is the fault the model writes for a write that
never returns (log entry 6, DESIGN CHOICE). -/
def Obligations.StepsCompleteIfTheTransportReturns : Prop :=
  ∀ (k : Nat) (s : State), s.transportReturns k → ∃ t, Host.Core.run Sys2Proof.core k s = .next t

/-! ## The invariant -/

/-- Every step keeps the invariant: SYMBUF in canonical form and holding the last frame whole, every recorded transaction and
every response as the spec allows, an initialised block configured (10_state.md sections 2 to 4, 43_transmit_driver.md
section 4). The model's choices in it: where the hosts' responses, the last configuration and the response under way are kept
(log entries 1, 11 and 12, DESIGN CHOICE). -/
def Obligations.EveryStepKeepsTheInvariant : Prop := ∀ s t : State, s.Inv → step s = .next t → t.Inv

/-- The invariant holds at reset. That after reset there is no host, no response under way and no call of the transport is
the model's choice (log entry 13, DESIGN CHOICE; for the transport's configuration log entry 11): those fields are the model's
own or another agent's, and the spec gives them no reset value. INITIALIZED = false and the empty TX_LOG are the spec's (R31). -/
def Obligations.InvariantHoldsAtReset : Prop := State.reset.Inv

/-! ## The data line (informative in the spec) -/

/-- R133's sentence on symbols (the spec derives it): at 8 MHz each serial bit holds the line for 125 ns, 1 high and 0 low, sent
MSB first; a symbol is one high run of 6 or 2 bit periods, then low. The line's levels are functions over bytes, not state
(log entry 15, DEDUCED). -/
def Obligations.SymbolsAreOneHighRunThenLow : Prop :=
  bitPeriodNs Config.txcfg = 125 ∧
  (∀ (b : Byte) (k : Nat), k < 8 →
    (byteLevels Config.txcfg b)[k]? = some (if b.getLsbD (7 - k) then .high else .low)) ∧
  byteLevels Config.txcfg (encBit true) = List.replicate 6 .high ++ List.replicate 2 .low ∧
  byteLevels Config.txcfg (encBit false) = List.replicate 2 .high ++ List.replicate 6 .low

/-- The durations the spec derives in 70_reset_and_hazards.md section 4, in ns. They assume bytes sent back to back, which is
the spec's decision D18 (log entry 15). -/
def Obligations.LineDurationsAreTheDerivedOnes : Prop :=
  highNs Config.txcfg Config.symOne = 750 ∧ lowNs Config.txcfg Config.symOne = 250 ∧
  highNs Config.txcfg Config.symZero = 250 ∧ lowNs Config.txcfg Config.symZero = 750 ∧
  (∀ bytes : List Byte, durationNs Config.txcfg bytes = 1000 * bytes.length) ∧
  durationNs Config.txcfg resetGap = 64000 ∧
  (∀ strip : Vector Led 10, durationNs Config.txcfg (frameEncode strip) = 304000)

/-- From a whole frame chain LED `j` takes record `j` for `j < 10`: what the spec derives, as informative, in
43_transmit_driver.md section 5. The clause for `10 <= j` is the model's and no sentence of the spec, which leaves LEDs beyond
position N-1 outside the block (91_not_in_source.md N26, 93_implementation_defined.md I17): it says what the function
`chainLed` answers there, because the model counts a gap byte as no protocol bit (log entry 15, DEDUCED). -/
def Obligations.ChainLedTakesItsRecord : Prop :=
  ∀ strip : Vector Led 10,
    (∀ (j : Nat) (h : j < 10), chainLed (frameEncode strip) j = some strip[j]) ∧
    (∀ j, 10 ≤ j → chainLed (frameEncode strip) j = none)
end

