-- ==== Sys2Proof/Laws/State.lean ====
section
/-! SUPPORT. What each state update does to each field: one lemma per field per update, so that no later proof unfolds a
record update. -/

namespace Sys2Proof.Machine

/-! ## `State.setLed` -/

@[simp] theorem State.setLed_strip (s : State) (i : Nat) (h : i < Config.stripLen) (c : Led) : (s.setLed i h c).strip = s.strip.set i c := rfl
@[simp] theorem State.setLed_symbuf (s : State) (i : Nat) (h : i < Config.stripLen) (c : Led) : (s.setLed i h c).symbuf = s.symbuf := rfl
@[simp] theorem State.setLed_initialized (s : State) (i : Nat) (h : i < Config.stripLen) (c : Led) : (s.setLed i h c).initialized = s.initialized := rfl
@[simp] theorem State.setLed_txLog (s : State) (i : Nat) (h : i < Config.stripLen) (c : Led) : (s.setLed i h c).txLog = s.txLog := rfl
@[simp] theorem State.setLed_response (s : State) (i : Nat) (h : i < Config.stripLen) (c : Led) : (s.setLed i h c).response = s.response := rfl
@[simp] theorem State.setLed_hosts (s : State) (i : Nat) (h : i < Config.stripLen) (c : Led) : (s.setLed i h c).hosts = s.hosts := rfl
@[simp] theorem State.setLed_turns (s : State) (i : Nat) (h : i < Config.stripLen) (c : Led) : (s.setLed i h c).turns = s.turns := rfl
@[simp] theorem State.setLed_turnDraws (s : State) (i : Nat) (h : i < Config.stripLen) (c : Led) : (s.setLed i h c).turnDraws = s.turnDraws := rfl
@[simp] theorem State.setLed_transport (s : State) (i : Nat) (h : i < Config.stripLen) (c : Led) : (s.setLed i h c).transport = s.transport := rfl

/-! ## `State.fillStrip` -/

@[simp] theorem State.fillStrip_strip (s : State) (c : Led) : (s.fillStrip c).strip = Vector.replicate Config.stripLen c := rfl
@[simp] theorem State.fillStrip_symbuf (s : State) (c : Led) : (s.fillStrip c).symbuf = s.symbuf := rfl
@[simp] theorem State.fillStrip_initialized (s : State) (c : Led) : (s.fillStrip c).initialized = s.initialized := rfl
@[simp] theorem State.fillStrip_txLog (s : State) (c : Led) : (s.fillStrip c).txLog = s.txLog := rfl
@[simp] theorem State.fillStrip_response (s : State) (c : Led) : (s.fillStrip c).response = s.response := rfl
@[simp] theorem State.fillStrip_hosts (s : State) (c : Led) : (s.fillStrip c).hosts = s.hosts := rfl
@[simp] theorem State.fillStrip_turns (s : State) (c : Led) : (s.fillStrip c).turns = s.turns := rfl
@[simp] theorem State.fillStrip_turnDraws (s : State) (c : Led) : (s.fillStrip c).turnDraws = s.turnDraws := rfl
@[simp] theorem State.fillStrip_transport (s : State) (c : Led) : (s.fillStrip c).transport = s.transport := rfl

/-! ## `State.memWrite` -/

@[simp] theorem State.memWrite_strip (s : State) (a : Nat) (v : List Byte) : (s.memWrite a v).strip = s.strip := rfl
@[simp] theorem State.memWrite_symbuf (s : State) (a : Nat) (v : List Byte) : (s.memWrite a v).symbuf = Memory.writeBytes s.symbuf a v := rfl
@[simp] theorem State.memWrite_initialized (s : State) (a : Nat) (v : List Byte) : (s.memWrite a v).initialized = s.initialized := rfl
@[simp] theorem State.memWrite_txLog (s : State) (a : Nat) (v : List Byte) : (s.memWrite a v).txLog = s.txLog := rfl
@[simp] theorem State.memWrite_response (s : State) (a : Nat) (v : List Byte) : (s.memWrite a v).response = s.response := rfl
@[simp] theorem State.memWrite_hosts (s : State) (a : Nat) (v : List Byte) : (s.memWrite a v).hosts = s.hosts := rfl
@[simp] theorem State.memWrite_turns (s : State) (a : Nat) (v : List Byte) : (s.memWrite a v).turns = s.turns := rfl
@[simp] theorem State.memWrite_turnDraws (s : State) (a : Nat) (v : List Byte) : (s.memWrite a v).turnDraws = s.turnDraws := rfl
@[simp] theorem State.memWrite_transport (s : State) (a : Nat) (v : List Byte) : (s.memWrite a v).transport = s.transport := rfl

/-! ## `State.setInitialized` -/

@[simp] theorem State.setInitialized_strip (s : State) (v : Bool) : (s.setInitialized v).strip = s.strip := rfl
@[simp] theorem State.setInitialized_symbuf (s : State) (v : Bool) : (s.setInitialized v).symbuf = s.symbuf := rfl
@[simp] theorem State.setInitialized_initialized (s : State) (v : Bool) : (s.setInitialized v).initialized = v := rfl
@[simp] theorem State.setInitialized_txLog (s : State) (v : Bool) : (s.setInitialized v).txLog = s.txLog := rfl
@[simp] theorem State.setInitialized_response (s : State) (v : Bool) : (s.setInitialized v).response = s.response := rfl
@[simp] theorem State.setInitialized_hosts (s : State) (v : Bool) : (s.setInitialized v).hosts = s.hosts := rfl
@[simp] theorem State.setInitialized_turns (s : State) (v : Bool) : (s.setInitialized v).turns = s.turns := rfl
@[simp] theorem State.setInitialized_turnDraws (s : State) (v : Bool) : (s.setInitialized v).turnDraws = s.turnDraws := rfl
@[simp] theorem State.setInitialized_transport (s : State) (v : Bool) : (s.setInitialized v).transport = s.transport := rfl

/-! ## `State.appendTxLog` -/

@[simp] theorem State.appendTxLog_strip (s : State) (e : TxEvent) : (s.appendTxLog e).strip = s.strip := rfl
@[simp] theorem State.appendTxLog_symbuf (s : State) (e : TxEvent) : (s.appendTxLog e).symbuf = s.symbuf := rfl
@[simp] theorem State.appendTxLog_initialized (s : State) (e : TxEvent) : (s.appendTxLog e).initialized = s.initialized := rfl
@[simp] theorem State.appendTxLog_txLog (s : State) (e : TxEvent) : (s.appendTxLog e).txLog = s.txLog ++ [e] := rfl
@[simp] theorem State.appendTxLog_response (s : State) (e : TxEvent) : (s.appendTxLog e).response = s.response := rfl
@[simp] theorem State.appendTxLog_hosts (s : State) (e : TxEvent) : (s.appendTxLog e).hosts = s.hosts := rfl
@[simp] theorem State.appendTxLog_turns (s : State) (e : TxEvent) : (s.appendTxLog e).turns = s.turns := rfl
@[simp] theorem State.appendTxLog_turnDraws (s : State) (e : TxEvent) : (s.appendTxLog e).turnDraws = s.turnDraws := rfl
@[simp] theorem State.appendTxLog_transport (s : State) (e : TxEvent) : (s.appendTxLog e).transport = s.transport := rfl

/-! ## `State.respond` -/

@[simp] theorem State.respond_strip (s : State) (r : Response) : (s.respond r).strip = s.strip := rfl
@[simp] theorem State.respond_symbuf (s : State) (r : Response) : (s.respond r).symbuf = s.symbuf := rfl
@[simp] theorem State.respond_initialized (s : State) (r : Response) : (s.respond r).initialized = s.initialized := rfl
@[simp] theorem State.respond_txLog (s : State) (r : Response) : (s.respond r).txLog = s.txLog := rfl
@[simp] theorem State.respond_response (s : State) (r : Response) : (s.respond r).response = some r := rfl
@[simp] theorem State.respond_hosts (s : State) (r : Response) : (s.respond r).hosts = s.hosts := rfl
@[simp] theorem State.respond_turns (s : State) (r : Response) : (s.respond r).turns = s.turns := rfl
@[simp] theorem State.respond_turnDraws (s : State) (r : Response) : (s.respond r).turnDraws = s.turnDraws := rfl
@[simp] theorem State.respond_transport (s : State) (r : Response) : (s.respond r).transport = s.transport := rfl

/-! ## `State.readyAsked` -/

@[simp] theorem State.readyAsked_strip (s : State) : s.readyAsked.strip = s.strip := rfl
@[simp] theorem State.readyAsked_symbuf (s : State) : s.readyAsked.symbuf = s.symbuf := rfl
@[simp] theorem State.readyAsked_initialized (s : State) : s.readyAsked.initialized = s.initialized := rfl
@[simp] theorem State.readyAsked_txLog (s : State) : s.readyAsked.txLog = s.txLog := rfl
@[simp] theorem State.readyAsked_response (s : State) : s.readyAsked.response = s.response := rfl
@[simp] theorem State.readyAsked_hosts (s : State) : s.readyAsked.hosts = s.hosts := rfl
@[simp] theorem State.readyAsked_turns (s : State) : s.readyAsked.turns = s.turns := rfl
@[simp] theorem State.readyAsked_turnDraws (s : State) : s.readyAsked.turnDraws = s.turnDraws := rfl
@[simp] theorem State.readyAsked_transport_readyAnswers (s : State) :
    s.readyAsked.transport.readyAnswers = s.transport.readyAnswers.tail := rfl
@[simp] theorem State.readyAsked_transport_readyQueries (s : State) :
    s.readyAsked.transport.readyQueries = s.transport.readyQueries + 1 := rfl
@[simp] theorem State.readyAsked_transport_writeAnswers (s : State) :
    s.readyAsked.transport.writeAnswers = s.transport.writeAnswers := rfl
@[simp] theorem State.readyAsked_transport_writeCalls (s : State) :
    s.readyAsked.transport.writeCalls = s.transport.writeCalls := rfl
@[simp] theorem State.readyAsked_transport_config (s : State) :
    s.readyAsked.transport.config = s.transport.config := rfl
@[simp] theorem State.readyAsked_transport_configureCalls (s : State) :
    s.readyAsked.transport.configureCalls = s.transport.configureCalls := rfl

/-! ## `State.writeAsked` -/

@[simp] theorem State.writeAsked_strip (s : State) : s.writeAsked.strip = s.strip := rfl
@[simp] theorem State.writeAsked_symbuf (s : State) : s.writeAsked.symbuf = s.symbuf := rfl
@[simp] theorem State.writeAsked_initialized (s : State) : s.writeAsked.initialized = s.initialized := rfl
@[simp] theorem State.writeAsked_txLog (s : State) : s.writeAsked.txLog = s.txLog := rfl
@[simp] theorem State.writeAsked_response (s : State) : s.writeAsked.response = s.response := rfl
@[simp] theorem State.writeAsked_hosts (s : State) : s.writeAsked.hosts = s.hosts := rfl
@[simp] theorem State.writeAsked_turns (s : State) : s.writeAsked.turns = s.turns := rfl
@[simp] theorem State.writeAsked_turnDraws (s : State) : s.writeAsked.turnDraws = s.turnDraws := rfl
@[simp] theorem State.writeAsked_transport_readyAnswers (s : State) :
    s.writeAsked.transport.readyAnswers = s.transport.readyAnswers := rfl
@[simp] theorem State.writeAsked_transport_readyQueries (s : State) :
    s.writeAsked.transport.readyQueries = s.transport.readyQueries := rfl
@[simp] theorem State.writeAsked_transport_writeAnswers (s : State) :
    s.writeAsked.transport.writeAnswers = s.transport.writeAnswers.tail := rfl
@[simp] theorem State.writeAsked_transport_writeCalls (s : State) :
    s.writeAsked.transport.writeCalls = s.transport.writeCalls + 1 := rfl
@[simp] theorem State.writeAsked_transport_config (s : State) :
    s.writeAsked.transport.config = s.transport.config := rfl
@[simp] theorem State.writeAsked_transport_configureCalls (s : State) :
    s.writeAsked.transport.configureCalls = s.transport.configureCalls := rfl

/-! ## `State.txConfigure` -/

@[simp] theorem State.txConfigure_strip (s : State) (cfg : TxConfig) : (s.txConfigure cfg).strip = s.strip := rfl
@[simp] theorem State.txConfigure_symbuf (s : State) (cfg : TxConfig) : (s.txConfigure cfg).symbuf = s.symbuf := rfl
@[simp] theorem State.txConfigure_initialized (s : State) (cfg : TxConfig) : (s.txConfigure cfg).initialized = s.initialized := rfl
@[simp] theorem State.txConfigure_txLog (s : State) (cfg : TxConfig) : (s.txConfigure cfg).txLog = s.txLog := rfl
@[simp] theorem State.txConfigure_response (s : State) (cfg : TxConfig) : (s.txConfigure cfg).response = s.response := rfl
@[simp] theorem State.txConfigure_hosts (s : State) (cfg : TxConfig) : (s.txConfigure cfg).hosts = s.hosts := rfl
@[simp] theorem State.txConfigure_turns (s : State) (cfg : TxConfig) : (s.txConfigure cfg).turns = s.turns := rfl
@[simp] theorem State.txConfigure_turnDraws (s : State) (cfg : TxConfig) : (s.txConfigure cfg).turnDraws = s.turnDraws := rfl
@[simp] theorem State.txConfigure_transport_readyAnswers (s : State) (cfg : TxConfig) :
    (s.txConfigure cfg).transport.readyAnswers = s.transport.readyAnswers := rfl
@[simp] theorem State.txConfigure_transport_readyQueries (s : State) (cfg : TxConfig) :
    (s.txConfigure cfg).transport.readyQueries = s.transport.readyQueries := rfl
@[simp] theorem State.txConfigure_transport_writeAnswers (s : State) (cfg : TxConfig) :
    (s.txConfigure cfg).transport.writeAnswers = s.transport.writeAnswers := rfl
@[simp] theorem State.txConfigure_transport_writeCalls (s : State) (cfg : TxConfig) :
    (s.txConfigure cfg).transport.writeCalls = s.transport.writeCalls := rfl
@[simp] theorem State.txConfigure_transport_config (s : State) (cfg : TxConfig) :
    (s.txConfigure cfg).transport.config = some cfg := rfl
@[simp] theorem State.txConfigure_transport_configureCalls (s : State) (cfg : TxConfig) :
    (s.txConfigure cfg).transport.configureCalls = s.transport.configureCalls + 1 := rfl

/-! ## `State.succeed` and `State.fail` are `State.respond` -/

@[simp] theorem State.succeed_eq (s : State) (d : BitVec 24) : s.succeed d = s.respond (okResponse d) := rfl
@[simp] theorem State.fail_eq (s : State) (e : ErrorKind) : s.fail e = s.respond e.response := rfl

/-! ## `State.turnTaken` -/

@[simp] theorem State.turnTaken_strip (s : State) : s.turnTaken.strip = s.strip := rfl
@[simp] theorem State.turnTaken_symbuf (s : State) : s.turnTaken.symbuf = s.symbuf := rfl
@[simp] theorem State.turnTaken_initialized (s : State) : s.turnTaken.initialized = s.initialized := rfl
@[simp] theorem State.turnTaken_txLog (s : State) : s.turnTaken.txLog = s.txLog := rfl
@[simp] theorem State.turnTaken_response (s : State) : s.turnTaken.response = s.response := rfl
@[simp] theorem State.turnTaken_hosts (s : State) : s.turnTaken.hosts = s.hosts := rfl
@[simp] theorem State.turnTaken_turns (s : State) : s.turnTaken.turns = s.turns.tail := rfl
@[simp] theorem State.turnTaken_turnDraws (s : State) : s.turnTaken.turnDraws = s.turnDraws + 1 := rfl
@[simp] theorem State.turnTaken_transport (s : State) : s.turnTaken.transport = s.transport := rfl

/-! ## `State.deliver` -/

@[simp] theorem State.deliver_strip (s : State) (k : Nat) : (s.deliver k).strip = s.strip := by
  unfold State.deliver; split <;> rfl
@[simp] theorem State.deliver_symbuf (s : State) (k : Nat) : (s.deliver k).symbuf = s.symbuf := by
  unfold State.deliver; split <;> rfl
@[simp] theorem State.deliver_initialized (s : State) (k : Nat) : (s.deliver k).initialized = s.initialized := by
  unfold State.deliver; split <;> rfl
@[simp] theorem State.deliver_txLog (s : State) (k : Nat) : (s.deliver k).txLog = s.txLog := by
  unfold State.deliver; split <;> rfl
@[simp] theorem State.deliver_turns (s : State) (k : Nat) : (s.deliver k).turns = s.turns := by
  unfold State.deliver; split <;> rfl
@[simp] theorem State.deliver_turnDraws (s : State) (k : Nat) : (s.deliver k).turnDraws = s.turnDraws := by
  unfold State.deliver; split <;> rfl
@[simp] theorem State.deliver_transport (s : State) (k : Nat) : (s.deliver k).transport = s.transport := by
  unfold State.deliver; split <;> rfl

@[simp] theorem State.deliver_response (s : State) (k : Nat) : (s.deliver k).response = none := by
  unfold State.deliver; split <;> simp [*]

theorem State.deliver_hosts_of_some (s : State) (k : Nat) (r : Response) (h : s.response = some r) :
    (s.deliver k).hosts = s.hosts.modify k (fun c => { c with responses := c.responses ++ [r] }) := by
  simp [State.deliver, h]

/-! ## `State.withFetchWord` -/

@[simp] theorem State.withFetchWord_strip (s : State) (n w : Nat) : (s.withFetchWord n w).strip = s.strip := rfl
@[simp] theorem State.withFetchWord_symbuf (s : State) (n w : Nat) : (s.withFetchWord n w).symbuf = s.symbuf := rfl
@[simp] theorem State.withFetchWord_initialized (s : State) (n w : Nat) : (s.withFetchWord n w).initialized = s.initialized := rfl
@[simp] theorem State.withFetchWord_txLog (s : State) (n w : Nat) : (s.withFetchWord n w).txLog = s.txLog := rfl
@[simp] theorem State.withFetchWord_response (s : State) (n w : Nat) : (s.withFetchWord n w).response = s.response := rfl
@[simp] theorem State.withFetchWord_turnDraws (s : State) (n w : Nat) : (s.withFetchWord n w).turnDraws = s.turnDraws := rfl
@[simp] theorem State.withFetchWord_transport (s : State) (n w : Nat) : (s.withFetchWord n w).transport = s.transport := rfl

/-! ## Answers that an update does not touch -/

@[simp] theorem State.setLed_readyAnswer (s : State) (i : Nat) (h : i < Config.stripLen) (c : Led) : (s.setLed i h c).readyAnswer = s.readyAnswer := rfl
@[simp] theorem State.setLed_writeAnswer (s : State) (i : Nat) (h : i < Config.stripLen) (c : Led) : (s.setLed i h c).writeAnswer = s.writeAnswer := rfl
@[simp] theorem State.setLed_turnAnswer (s : State) (i : Nat) (h : i < Config.stripLen) (c : Led) : (s.setLed i h c).turnAnswer = s.turnAnswer := rfl
@[simp] theorem State.fillStrip_readyAnswer (s : State) (c : Led) : (s.fillStrip c).readyAnswer = s.readyAnswer := rfl
@[simp] theorem State.fillStrip_writeAnswer (s : State) (c : Led) : (s.fillStrip c).writeAnswer = s.writeAnswer := rfl
@[simp] theorem State.fillStrip_turnAnswer (s : State) (c : Led) : (s.fillStrip c).turnAnswer = s.turnAnswer := rfl
@[simp] theorem State.memWrite_readyAnswer (s : State) (a : Nat) (v : List Byte) : (s.memWrite a v).readyAnswer = s.readyAnswer := rfl
@[simp] theorem State.memWrite_writeAnswer (s : State) (a : Nat) (v : List Byte) : (s.memWrite a v).writeAnswer = s.writeAnswer := rfl
@[simp] theorem State.memWrite_turnAnswer (s : State) (a : Nat) (v : List Byte) : (s.memWrite a v).turnAnswer = s.turnAnswer := rfl
@[simp] theorem State.setInitialized_readyAnswer (s : State) (v : Bool) : (s.setInitialized v).readyAnswer = s.readyAnswer := rfl
@[simp] theorem State.setInitialized_writeAnswer (s : State) (v : Bool) : (s.setInitialized v).writeAnswer = s.writeAnswer := rfl
@[simp] theorem State.setInitialized_turnAnswer (s : State) (v : Bool) : (s.setInitialized v).turnAnswer = s.turnAnswer := rfl
@[simp] theorem State.appendTxLog_readyAnswer (s : State) (e : TxEvent) : (s.appendTxLog e).readyAnswer = s.readyAnswer := rfl
@[simp] theorem State.appendTxLog_writeAnswer (s : State) (e : TxEvent) : (s.appendTxLog e).writeAnswer = s.writeAnswer := rfl
@[simp] theorem State.appendTxLog_turnAnswer (s : State) (e : TxEvent) : (s.appendTxLog e).turnAnswer = s.turnAnswer := rfl
@[simp] theorem State.respond_readyAnswer (s : State) (r : Response) : (s.respond r).readyAnswer = s.readyAnswer := rfl
@[simp] theorem State.respond_writeAnswer (s : State) (r : Response) : (s.respond r).writeAnswer = s.writeAnswer := rfl
@[simp] theorem State.respond_turnAnswer (s : State) (r : Response) : (s.respond r).turnAnswer = s.turnAnswer := rfl
@[simp] theorem State.readyAsked_writeAnswer (s : State) : s.readyAsked.writeAnswer = s.writeAnswer := rfl
@[simp] theorem State.readyAsked_turnAnswer (s : State) : s.readyAsked.turnAnswer = s.turnAnswer := rfl
@[simp] theorem State.writeAsked_readyAnswer (s : State) : s.writeAsked.readyAnswer = s.readyAnswer := rfl
@[simp] theorem State.writeAsked_turnAnswer (s : State) : s.writeAsked.turnAnswer = s.turnAnswer := rfl

end Sys2Proof.Machine
end

