-- ==== Sys2Proof/Laws/Memory.lean ====
section
/-! SUPPORT. The laws of SYMBUF's memory: reading after a write, and that every operation keeps the canonical form. -/

namespace Sys2Proof.Machine.Memory

@[simp] theorem lookup_nil (a : Nat) : lookup [] a = none := rfl

theorem lookup_cons (k a : Nat) (b : Byte) (m : Memory) :
    lookup ((k, b) :: m) a = if k = a then some b else lookup m a := rfl

theorem lookup_append (m n : Memory) (a : Nat) : lookup (m ++ n) a = (lookup m a).or (lookup n a) := by
  induction m with
  | nil => simp
  | cons c m ih =>
    obtain ⟨k, b⟩ := c
    simp only [List.cons_append, lookup_cons, ih]
    split <;> simp

theorem lookup_filter (m : Memory) (p : Nat → Bool) (a : Nat) :
    lookup (m.filter fun c => p c.1) a = if p a then lookup m a else none := by
  induction m with
  | nil => simp
  | cons c m ih =>
    obtain ⟨k, b⟩ := c
    by_cases hk : k = a
    · subst hk; cases hp : p k <;> simp [lookup_cons, ih, hp]
    · cases hp : p k <;> simp [lookup_cons, ih, hp, hk]

theorem lookup_cells (bs : List Byte) (a k : Nat) :
    lookup (cells a bs) k = if a ≤ k then bs[k - a]? else none := by
  induction bs generalizing a with
  | nil => simp [cells]
  | cons b bs ih =>
    simp only [cells, lookup_cons, ih]
    by_cases h : a = k
    · subst h; simp
    · by_cases hle : a ≤ k
      · obtain ⟨d, rfl⟩ : ∃ d, k = a + 1 + d := ⟨k - a - 1, by omega⟩
        have hd : a + 1 + d - a = d + 1 := by omega
        simp [h, hd, show a ≤ a + 1 + d by omega]
      · simp [h, hle, show ¬ a + 1 ≤ k by omega]

/-- Everything a write does to a lookup: the bytes stored are found, every other offset reads as before. -/
theorem lookup_writeBytes (m : Memory) (a k : Nat) (bs : List Byte) :
    lookup (writeBytes m a bs) k = if a ≤ k ∧ k < a + bs.length then bs[k - a]? else lookup m k := by
  have below := lookup_filter m (fun x => decide (x < a)) k
  have above := lookup_filter m (fun x => decide (a + bs.length ≤ x)) k
  simp only [decide_eq_true_eq] at below above
  rw [writeBytes, lookup_append, lookup_append, below, above, lookup_cells]
  by_cases h1 : k < a
  · simp [h1, show ¬ a ≤ k by omega, show ¬ a + bs.length ≤ k by omega]
  · by_cases h2 : a + bs.length ≤ k
    · have : bs[k - a]? = none := by simp; omega
      simp [h1, h2, show ¬ k < a + bs.length by omega, this]
    · simp [h1, h2, show a ≤ k by omega, show k < a + bs.length by omega]

theorem readByte_writeBytes_inside (m : Memory) (a k : Nat) (bs : List Byte) (h : k < bs.length) :
    readByte (writeBytes m a bs) (a + k) = bs[k] := by
  simp [readByte, lookup_writeBytes, h]

theorem readByte_writeBytes_outside (m : Memory) (a k : Nat) (bs : List Byte) (h : k < a ∨ a + bs.length ≤ k) :
    readByte (writeBytes m a bs) k = readByte m k := by
  have : ¬ (a ≤ k ∧ k < a + bs.length) := by omega
  simp [readByte, lookup_writeBytes, this]

theorem mem_cells {bs : List Byte} {a : Nat} {c : Host.Cell} (h : c ∈ cells a bs) :
    a ≤ c.1 ∧ c.1 < a + bs.length := by
  induction bs generalizing a with
  | nil => simp [cells] at h
  | cons b bs ih =>
    rcases List.mem_cons.mp h with rfl | h
    · simp
    · have := ih h; simp only [List.length_cons]; omega

theorem cells_rising (a : Nat) (bs : List Byte) : (cells a bs).Pairwise (fun x y => x.1 < y.1) := by
  induction bs generalizing a with
  | nil => simp [cells]
  | cons b bs ih =>
    refine List.pairwise_cons.mpr ⟨fun c hc => ?_, ih _⟩
    have := mem_cells hc
    show a < c.1
    omega

theorem wf_nil : wf [] := ⟨List.Pairwise.nil, by simp⟩

/-- A write within the buffer keeps the canonical form. -/
theorem wf_writeBytes (m : Memory) (a : Nat) (bs : List Byte) (h : wf m) (fits : a + bs.length ≤ Config.bufLen) :
    wf (writeBytes m a bs) := by
  obtain ⟨rising, inside⟩ := h
  constructor
  · rw [writeBytes, List.append_assoc]
    refine List.pairwise_append.mpr ⟨rising.filter _, List.pairwise_append.mpr
      ⟨cells_rising a bs, rising.filter _, ?_⟩, ?_⟩
    · intro x hx y hy
      have := mem_cells hx
      have := (List.mem_filter.mp hy).2
      simp only [decide_eq_true_eq] at this
      omega
    · intro x hx y hy
      have hxa := (List.mem_filter.mp hx).2
      simp only [decide_eq_true_eq] at hxa
      rcases List.mem_append.mp hy with hy | hy
      · have := mem_cells hy; omega
      · have := (List.mem_filter.mp hy).2
        simp only [decide_eq_true_eq] at this
        omega
  · intro c hc
    rw [writeBytes] at hc
    rcases List.mem_append.mp hc with hc | hc
    · rcases List.mem_append.mp hc with hc | hc
      · exact inside c (List.mem_filter.mp hc).1
      · have := mem_cells hc; omega
    · exact inside c (List.mem_filter.mp hc).1

/-- A write over the whole buffer leaves nothing of what it held. -/
theorem writeBytes_whole (m : Memory) (bs : List Byte) (h : wf m) (full : bs.length = Config.bufLen) :
    writeBytes m 0 bs = cells 0 bs := by
  have low : m.filter (fun c => decide (c.1 < 0)) = [] := by simp
  have high : m.filter (fun c => decide (0 + bs.length ≤ c.1)) = [] := by
    rw [List.filter_eq_nil_iff]
    intro c hc
    have := h.2 c hc
    simp only [decide_eq_true_eq]; omega
  rw [writeBytes, low, high]; simp

end Sys2Proof.Machine.Memory

namespace Sys2Proof.Machine

/-- Reading back what was just written. -/
theorem State.memRead_memWrite (s : State) (a : Nat) (v : List Byte) :
    (s.memWrite a v).memRead a v.length = v := by
  apply List.ext_getElem
  · simp [State.memRead]
  · intro k h1 h2
    simp [State.memRead, State.symbufByte, State.memWrite, Memory.readByte_writeBytes_inside _ _ _ _ h2]

end Sys2Proof.Machine
end

