-- ==== Sys2Proof/Laws/Ops.lean ====
section
/-! SUPPORT. What the shared operations can do: how a command ends, the transport's primitives, operand assembly. -/

namespace Sys2Proof.Machine

/-! ## How a command ends -/

theorem returnOk_eq (d : BitVec 24) (s : State) :
    returnOk d s = .next { s with response := some ⟨0x00#8, d, 0#32⟩ } := rfl

theorem raise_eq (e : ErrorKind) (s : State) :
    raise e s = .next { s with response := some ⟨e.code, 0#24, e.txcode⟩ } := rfl

theorem returnOk_next {d : BitVec 24} {s t : State} (h : returnOk d s = .next t) :
    t = s.respond (okResponse d) := by
  simp only [returnOk, State.succeed, Host.Outcome.next.injEq] at h; exact h.symm

theorem raise_next {e : ErrorKind} {s t : State} (h : raise e s = .next t) : t = s.respond e.response := by
  simp only [raise, State.fail, Host.Outcome.next.injEq] at h; exact h.symm

theorem okResponse_wf (d : BitVec 24) : (okResponse d).Wf := Or.inl ⟨rfl, rfl⟩

theorem deviceNotReady_wf : ErrorKind.deviceNotReady.response.Wf := by
  simp [Response.Wf, ErrorKind.response, ErrorKind.code, ErrorKind.txcode]

theorem invalidIndex_wf (i : BitVec 32) : (ErrorKind.invalidIndex i).response.Wf := by
  simp [Response.Wf, ErrorKind.response, ErrorKind.code, ErrorKind.txcode]

theorem transportWriteFailed_wf (c : BitVec 32) (h : c ≠ 0) : (ErrorKind.transportWriteFailed c).response.Wf := by
  simpa [Response.Wf, ErrorKind.response, ErrorKind.code, ErrorKind.txcode] using h

theorem illegalCommand_wf : ErrorKind.illegalCommand.response.Wf := by
  simp [Response.Wf, ErrorKind.response, ErrorKind.code, ErrorKind.txcode]

theorem execIllegal_eq (e : Reject) (s : State) :
    execIllegal e s = .next { s with response := some ⟨0x04#8, 0#24, 0#32⟩ } := rfl

/-! ## The transport's primitives -/

@[simp] theorem State.txReady_eq (s : State) : s.txReady = (s.readyAnswer, s.readyAsked) := rfl

@[simp] theorem State.txWrite_eq (s : State) (p : List Byte) :
    s.txWrite p = (writeResult s.writeAnswer p, s.writeAsked) := rfl

/-- Every result a write can have: OK with the whole payload, or FAIL with a nonzero code and a prefix of it. -/
theorem writeResult_cases {a : WriteAnswer} {p : List Byte} {st : TxStatus} {em : List Byte}
    (h : writeResult a p = some (st, em)) :
    (st = .ok ∧ em = p) ∨ ∃ code, code ≠ 0 ∧ st = .fail code ∧ em <+: p := by
  cases a with
  | neverReturns => simp [writeResult] at h
  | returned status n =>
    simp only [writeResult] at h
    split at h
    · simp only [Option.some.injEq, Prod.mk.injEq] at h
      exact .inl ⟨h.1.symm, h.2.symm⟩
    · rename_i hs
      simp only [Option.some.injEq, Prod.mk.injEq] at h
      exact .inr ⟨status, hs, h.1.symm, h.2 ▸ List.take_prefix n p⟩

theorem writeResult_none {a : WriteAnswer} {p : List Byte} : writeResult a p = none ↔ a = .neverReturns := by
  cases a with
  | neverReturns => simp [writeResult]
  | returned status n => simp only [writeResult]; split <;> simp

/-! ## Operand assembly -/

@[simp] theorem indexOperand_toNat (idx : BitVec 16) : (indexOperand idx).toNat = idx.toNat := by
  simp only [indexOperand, BitVec.toNat_setWidth]
  omega

/-! ## The transmit driver, by what the transport answers -/

theorem execInit_eq (s : State) : execInit s =
    if s.readyAnswer then returnOk 0 ((s.readyAsked.txConfigure Config.txcfg).setInitialized true)
    else raise .deviceNotReady s.readyAsked := by
  cases h : s.readyAnswer <;> simp only [execInit, State.txReady_eq, h] <;> rfl

theorem execUpdate_eq (s : State) : execUpdate s =
    if s.initialized then (if s.readyAnswer then transmit s.readyAsked else raise .deviceNotReady s.readyAsked)
    else raise .deviceNotReady s := rfl

theorem transmit_eq (s : State) : transmit s =
    match writeResult s.writeAnswer ((s.memWrite 0 (frameEncode s.strip)).memRead 0 Config.bufLen) with
    | some (status, emitted) =>
      finishUpdate ((s.memWrite 0 (frameEncode s.strip)).memRead 0 Config.bufLen) status emitted
        (s.memWrite 0 (frameEncode s.strip)).writeAsked
    | none => .fault .txWriteNeverReturns := by
  simp only [transmit, State.txWrite_eq, State.memWrite_writeAnswer]
  split <;> simp_all

end Sys2Proof.Machine
end

