-- ==== Sys2Proof/Laws/Port.lean ====
section
/-! SUPPORT. What the command port can do. -/

namespace Sys2Proof.Machine

theorem mem_readyHostsFrom {hs : List CommandHost} {k j : Nat} (h : j ∈ readyHostsFrom k hs) :
    ∃ i, j = k + i ∧ ∃ c, hs[i]? = some c ∧ c.commands ≠ [] := by
  induction hs generalizing k with
  | nil => simp [readyHostsFrom] at h
  | cons c hs ih =>
    have tail (h : j ∈ readyHostsFrom (k + 1) hs) : ∃ i, j = k + i ∧ ∃ d, (c :: hs)[i]? = some d ∧ d.commands ≠ [] := by
      obtain ⟨i, rfl, d, hd, hne⟩ := ih h
      exact ⟨i + 1, by omega, d, by simpa using hd, hne⟩
    simp only [readyHostsFrom] at h
    split at h
    · exact tail h
    · rename_i hc
      rcases List.mem_cons.mp h with rfl | h
      · exact ⟨0, rfl, c, rfl, by simpa using hc⟩
      · exact tail h

theorem mem_readyHosts {hs : List CommandHost} {j : Nat} (h : j ∈ readyHosts hs) :
    ∃ c, hs[j]? = some c ∧ c.commands ≠ [] := by
  obtain ⟨i, rfl, hc⟩ := mem_readyHostsFrom h
  simpa using hc

theorem readyHostsFrom_mem {hs : List CommandHost} {k i : Nat} {c : CommandHost} (h : hs[i]? = some c)
    (hne : c.commands ≠ []) : k + i ∈ readyHostsFrom k hs := by
  induction hs generalizing k i with
  | nil => simp at h
  | cons d hs ih =>
    simp only [readyHostsFrom]
    cases i with
    | zero =>
      simp only [List.getElem?_cons_zero, Option.some.injEq] at h
      subst h
      simp [hne]
    | succ i =>
      have := ih (k := k + 1) (by simpa using h)
      rw [show k + (i + 1) = k + 1 + i by omega]
      split
      · exact this
      · exact List.mem_cons_of_mem _ this

/-- Everything arbitration can do: it serves a host that has a command, and changes only the turns. -/
theorem State.arbitrate_some {s t : State} {k : Nat} (h : s.arbitrate = some (k, t)) :
    k ∈ readyHosts s.hosts ∧ (t = s ∨ t = s.turnTaken) := by
  unfold State.arbitrate at h
  split at h
  · simp at h
  · rename_i j hj
    simp only [Option.some.injEq, Prod.mk.injEq] at h
    exact ⟨by simp [hj, h.1], .inl h.2.symm⟩
  · rename_i a b r hr
    simp only [Option.some.injEq, Prod.mk.injEq] at h
    refine ⟨?_, .inr h.2.symm⟩
    have hlt : s.turnAnswer % (r.length + 2) < (a :: b :: r).length := by
      simp only [List.length_cons]; exact Nat.mod_lt _ (by omega)
    rw [hr, ← h.1, List.getD_eq_getElem?_getD, List.getElem?_eq_getElem hlt]
    exact List.getElem_mem _

/-- Everything accepting a command can do: it takes the first word of a host's list, and changes only that list and the
turns. -/
theorem State.accept_some {s t : State} {k : Nat} {w : CmdWord} (h : s.accept = some (k, w, t)) :
    ∃ ws rs, s.hosts[k]? = some ⟨w :: ws, rs⟩ ∧
      (t = { s with hosts := s.hosts.set k ⟨ws, rs⟩ } ∨
        t = { s.turnTaken with hosts := s.hosts.set k ⟨ws, rs⟩ }) := by
  unfold State.accept at h
  split at h
  · simp at h
  · rename_i j u hu
    obtain ⟨-, hcase⟩ := State.arbitrate_some hu
    split at h
    · rename_i w' ws rs hk
      simp only [Option.some.injEq, Prod.mk.injEq] at h
      obtain ⟨rfl, rfl, rfl⟩ := h
      refine ⟨ws, rs, ?_, ?_⟩
      · rcases hcase with rfl | rfl <;> simpa using hk
      · rcases hcase with rfl | rfl
        · exact .inl rfl
        · exact .inr rfl
    · simp at h

/-- The port waits exactly when no host has a command. -/
theorem State.accept_none {s : State} : s.accept = none ↔ readyHosts s.hosts = [] := by
  constructor
  · intro h
    unfold State.accept at h
    split at h
    · rename_i ha
      unfold State.arbitrate at ha
      split at ha
      · assumption
      · simp at ha
      · simp at ha
    · rename_i k u hu
      exfalso
      obtain ⟨hk, hcase⟩ := State.arbitrate_some hu
      obtain ⟨c, hc, hne⟩ := mem_readyHosts hk
      obtain ⟨cmds, rs⟩ := c
      cases cmds with
      | nil => simp at hne
      | cons w ws =>
        have : u.hosts[k]? = some ⟨w :: ws, rs⟩ := by rcases hcase with rfl | rfl <;> simpa using hc
        simp [this] at h
  · intro h
    simp [State.accept, State.arbitrate, h]

/-- With one host, its first command is the next. -/
theorem State.accept_single (s : State) (w : CmdWord) (ws : List CmdWord) (rs : List Response)
    (h : s.hosts = [⟨w :: ws, rs⟩]) : s.accept = some (0, w, { s with hosts := [⟨ws, rs⟩] }) := by
  simp [State.accept, State.arbitrate, readyHosts, readyHostsFrom, h]

/-- A word placed by `withFetchWord` is the next the port accepts, as the first host's. -/
theorem State.withFetchWord_accept (s : State) (n w : Nat) :
    ∃ t, (s.withFetchWord n w).accept = some (0, BitVec.ofNat 48 w, t) := by
  have key : ∃ h hs, (s.withFetchWord n w).hosts = h :: hs ∧ (∃ ws, h.commands = BitVec.ofNat 48 w :: ws) ∧
      hs = s.hosts.tail := by
    simp only [State.withFetchWord]
    cases s.hosts with
    | nil => exact ⟨_, _, rfl, ⟨[], rfl⟩, rfl⟩
    | cons c cs => exact ⟨_, _, rfl, ⟨c.commands, rfl⟩, rfl⟩
  obtain ⟨⟨cmds, rs⟩, hs, hh, ⟨ws, hws⟩, htail⟩ := key
  simp only at hws
  subst hws
  have turns : (s.withFetchWord n w).turns = firstTurn s := rfl
  have shift (l : List CommandHost) (k : Nat) : readyHostsFrom (k + 1) l = (readyHostsFrom k l).map (· + 1) := by
    induction l generalizing k with
    | nil => rfl
    | cons c l ih => simp only [readyHostsFrom]; split <;> simp [ih]
  have ready : readyHosts (s.withFetchWord n w).hosts = 0 :: (readyHosts s.hosts.tail).map (· + 1) := by
    rw [hh, htail]; simp [readyHosts, readyHostsFrom, shift]
  unfold State.accept State.arbitrate
  rw [ready]
  cases hr : readyHosts s.hosts.tail with
  | nil => simp [hh]
  | cons j js =>
    have : (s.withFetchWord n w).turnAnswer = 0 := by simp [State.turnAnswer, turns, firstTurn, hr]
    simp [this, hh]

end Sys2Proof.Machine
end

