-- ==== Sys2Proof/Laws/Decode.lean ====
section
/-! SUPPORT. A command word and its five fields: each field of a word put together from its fields, every word put
together from its own, and masking field by field. Decoding a word of known fields is one rewrite with these. -/

namespace Sys2Proof

section Fields

variable (opc : Byte) (idx : BitVec 16) (r g b : Byte)

@[simp] theorem opcField_assembleWord : opcField (assembleWord opc idx r g b) = opc := by
  apply BitVec.eq_of_getLsbD_eq; intro i hi
  simp only [opcField, assembleWord, BitVec.getLsbD_extractLsb', BitVec.getLsbD_append]
  interval_cases i <;> simp

@[simp] theorem idxField_assembleWord : idxField (assembleWord opc idx r g b) = idx := by
  apply BitVec.eq_of_getLsbD_eq; intro i hi
  simp only [idxField, assembleWord, BitVec.getLsbD_extractLsb', BitVec.getLsbD_append]
  interval_cases i <;> simp

@[simp] theorem redField_assembleWord : redField (assembleWord opc idx r g b) = r := by
  apply BitVec.eq_of_getLsbD_eq; intro i hi
  simp only [redField, assembleWord, BitVec.getLsbD_extractLsb', BitVec.getLsbD_append]
  interval_cases i <;> simp

@[simp] theorem greenField_assembleWord : greenField (assembleWord opc idx r g b) = g := by
  apply BitVec.eq_of_getLsbD_eq; intro i hi
  simp only [greenField, assembleWord, BitVec.getLsbD_extractLsb', BitVec.getLsbD_append]
  interval_cases i <;> simp

@[simp] theorem blueField_assembleWord : blueField (assembleWord opc idx r g b) = b := by
  apply BitVec.eq_of_getLsbD_eq; intro i hi
  simp only [blueField, assembleWord, BitVec.getLsbD_extractLsb', BitVec.getLsbD_append]
  interval_cases i <;> simp

/-- Masking works field by field. -/
theorem assembleWord_and (opc' : Byte) (idx' : BitVec 16) (r' g' b' : Byte) :
    assembleWord opc idx r g b &&& assembleWord opc' idx' r' g' b' =
      assembleWord (opc &&& opc') (idx &&& idx') (r &&& r') (g &&& g') (b &&& b') := by
  apply BitVec.eq_of_getLsbD_eq; intro i hi
  simp only [assembleWord, BitVec.getLsbD_and, BitVec.getLsbD_append]
  interval_cases i <;> simp

/-- Words are equal when their fields are. -/
theorem assembleWord_inj (opc' : Byte) (idx' : BitVec 16) (r' g' b' : Byte) :
    assembleWord opc idx r g b = assembleWord opc' idx' r' g' b' ↔
      opc = opc' ∧ idx = idx' ∧ r = r' ∧ g = g' ∧ b = b' := by
  constructor
  · intro h
    exact ⟨by simpa using congrArg opcField h, by simpa using congrArg idxField h, by simpa using congrArg redField h,
      by simpa using congrArg greenField h, by simpa using congrArg blueField h⟩
  · rintro ⟨rfl, rfl, rfl, rfl, rfl⟩; rfl

end Fields

/-- Every word is put together from its own fields (R61: the fields cover the word). -/
theorem assembleWord_fields (w : CmdWord) :
    assembleWord (opcField w) (idxField w) (redField w) (greenField w) (blueField w) = w := by
  apply BitVec.eq_of_getLsbD_eq; intro i hi
  simp only [assembleWord, opcField, idxField, redField, greenField, blueField, BitVec.getLsbD_extractLsb',
    BitVec.getLsbD_append]
  interval_cases i <;> simp

/-- `cmd[7:1]` of a word, from its blue field. -/
theorem blueHighField_eq (w : CmdWord) : blueHighField w = (blueField w).extractLsb' 1 7 := by
  apply BitVec.eq_of_getLsbD_eq; intro i hi
  simp only [blueHighField, blueField, BitVec.getLsbD_extractLsb']
  interval_cases i <;> simp

/-- `cmd[0]` of a word, from its blue field. -/
theorem bitField_eq (w : CmdWord) : bitField w = (blueField w).extractLsb' 0 1 := by
  apply BitVec.eq_of_getLsbD_eq; intro i hi
  obtain rfl : i = 0 := by omega
  simp [bitField, blueField]

/-- A masked comparison of a word, when mask and pattern are given by their fields. -/
theorem and_eq_iff_fields (w : CmdWord) (mo : Byte) (mi : BitVec 16) (mr mg mb : Byte) (po : Byte) (pi : BitVec 16)
    (pr pg pb : Byte) : w &&& assembleWord mo mi mr mg mb = assembleWord po pi pr pg pb ↔
      opcField w &&& mo = po ∧ idxField w &&& mi = pi ∧ redField w &&& mr = pr ∧ greenField w &&& mg = pg ∧
        blueField w &&& mb = pb := by
  conv_lhs => rw [← assembleWord_fields w, assembleWord_and]
  exact assembleWord_inj ..

end Sys2Proof
end

