-- ==== Sys2Proof/Laws/PerInstr.lean ====
section
/-! SUPPORT. Statements made per command: its word lies in its row of R64's opcode map, and the assembler statement that
stands for it is well formed and assembles to it (R68). -/

namespace Sys2Proof.Laws

namespace InRow

/-- The command's word selects its own row of the opcode map (R64). -/
def Statement (i : Instr) : Prop :=
  ∃ row ∈ opcodeMap, row.mnemonic = i.mnemonic ∧ encode i &&& row.mask = row.pattern

theorem init : Statement .init := ⟨_, List.mem_cons_self, rfl, by decide⟩

theorem deinit : Statement .deinit := ⟨⟨.deinit, 0x020000000000#48, 0xFFFFFFFFFFFF#48⟩, by decide, rfl, by decide⟩

theorem setLed (idx : BitVec 16) (r g b : Byte) : Statement (.setLed idx r g b) := by
  refine ⟨⟨.setLed, 0x100000000000#48, 0xFF0000000000#48⟩, by decide, rfl, ?_⟩
  show encode _ &&& assembleWord 0xFF#8 0 0 0 0 = assembleWord 0x10#8 0 0 0 0
  simp [encode, assembleWord_and]

theorem setAllLeds (r g b : Byte) : Statement (.setAllLeds r g b) := by
  refine ⟨⟨.setAllLeds, 0x110000000000#48, 0xFFFFFF000000#48⟩, by decide, rfl, ?_⟩
  show encode _ &&& assembleWord 0xFF#8 0xFFFF#16 0 0 0 = assembleWord 0x11#8 0 0 0 0
  simp [encode, assembleWord_and]

theorem clearLeds : Statement .clearLeds :=
  ⟨⟨.clearLeds, 0x120000000000#48, 0xFFFFFFFFFFFF#48⟩, by decide, rfl, by decide⟩

theorem getLed (idx : BitVec 16) : Statement (.getLed idx) := by
  refine ⟨⟨.getLed, 0x130000000000#48, 0xFF0000FFFFFF#48⟩, by decide, rfl, ?_⟩
  show encode _ &&& assembleWord 0xFF#8 0 0xFF#8 0xFF#8 0xFF#8 = assembleWord 0x13#8 0 0 0 0
  simp [encode, assembleWord_and]

theorem encBit (bit : BitVec 1) : Statement (.encBit bit) := by
  refine ⟨⟨.encBit, 0x200000000000#48, 0xFFFFFFFFFFFE#48⟩, by decide, rfl, ?_⟩
  revert bit; decide

theorem update : Statement .update := ⟨⟨.update, 0x300000000000#48, 0xFFFFFFFFFFFF#48⟩, by decide, rfl, by decide⟩

end InRow

namespace Assembles

/-- The assembler statement that stands for the command is well formed, and assembles to the command (R68). -/
def Statement (i : Instr) : Prop :=
  (Machine.disassemble i).wellFormed = true ∧ Machine.assemble (Machine.disassemble i) = .ok i

theorem check_nil : checkOperands [] [] = none := rfl

theorem check_cons (k : OperandKind) (ks : List OperandKind) (v : Nat) (vs : List Nat) (h : v ≤ k.limit) :
    checkOperands (k :: ks) (v :: vs) = checkOperands ks vs := if_pos h

theorem byte_le (b : Byte) : b.toNat ≤ OperandKind.limit .channel := by
  have := b.isLt; simp only [OperandKind.limit]; omega

theorem index_le (i : BitVec 16) : i.toNat ≤ OperandKind.limit .index := by
  have := i.isLt; simp only [OperandKind.limit]; omega

theorem bit_le (b : BitVec 1) : b.toNat ≤ OperandKind.limit .bit := by
  have := b.isLt; simp only [OperandKind.limit]; omega

theorem of_check {i : Instr} (h : (Machine.disassemble i).check = none)
    (ok : (Machine.disassemble i).check = none → Machine.assemble (Machine.disassemble i) = .ok i) : Statement i :=
  ⟨by simp [AsmLine.wellFormed, h], ok h⟩

theorem init : Statement .init := ⟨rfl, rfl⟩

theorem deinit : Statement .deinit := ⟨rfl, rfl⟩

theorem setLed (idx : BitVec 16) (r g b : Byte) : Statement (.setLed idx r g b) := by
  refine of_check ?_ fun h => ?_
  · simp [AsmLine.check, Machine.disassemble, Mnemonic.operandKinds, check_cons, byte_le, index_le, check_nil]
  · unfold Machine.assemble; rw [h]; simp [Machine.disassemble]

theorem setAllLeds (r g b : Byte) : Statement (.setAllLeds r g b) := by
  refine of_check ?_ fun h => ?_
  · simp [AsmLine.check, Machine.disassemble, Mnemonic.operandKinds, check_cons, byte_le, check_nil]
  · unfold Machine.assemble; rw [h]; simp [Machine.disassemble]

theorem clearLeds : Statement .clearLeds := ⟨rfl, rfl⟩

theorem getLed (idx : BitVec 16) : Statement (.getLed idx) := by
  refine of_check ?_ fun h => ?_
  · simp [AsmLine.check, Machine.disassemble, Mnemonic.operandKinds, check_cons, index_le, check_nil]
  · unfold Machine.assemble; rw [h]; simp [Machine.disassemble]

theorem encBit (bit : BitVec 1) : Statement (.encBit bit) := by
  refine of_check ?_ fun h => ?_
  · simp [AsmLine.check, Machine.disassemble, Mnemonic.operandKinds, check_cons, bit_le, check_nil]
  · unfold Machine.assemble; rw [h]; simp [Machine.disassemble]

theorem update : Statement .update := ⟨rfl, rfl⟩

end Assembles

end Sys2Proof.Laws
end

