-- ==== Sys2Proof/Laws/Exec.lean ====
section
/-! SUPPORT. Everything each command can do, said once: if it answers a next state, that state is one of these. -/

namespace Sys2Proof.Machine

/-- What `update` hands to the transport from a state: the frame, read back from SYMBUF. -/
abbrev payloadOf (s : State) : List Byte := (s.memWrite 0 (frameEncode s.strip)).memRead 0 Config.bufLen

/-- The response of a transaction's status (R128). -/
def statusResponse : TxStatus → Response
  | .ok => okResponse 0
  | .fail code => (ErrorKind.transportWriteFailed code).response

theorem finishUpdate_eq (p : List Byte) (st : TxStatus) (em : List Byte) (s : State) :
    finishUpdate p st em s = .next ((s.appendTxLog ⟨p, st, em⟩).respond (statusResponse st)) := by
  cases st <;> rfl

theorem execInit_next {s t : State} (h : execInit s = .next t) :
    (s.readyAnswer = true ∧
      t = ((s.readyAsked.txConfigure Config.txcfg).setInitialized true).respond (okResponse 0)) ∨
    (s.readyAnswer = false ∧ t = s.readyAsked.respond ErrorKind.deviceNotReady.response) := by
  rw [execInit_eq] at h
  split at h
  · exact .inl ⟨‹_›, returnOk_next h⟩
  · rename_i hr
    exact .inr ⟨Bool.eq_false_iff.mpr hr, raise_next h⟩

theorem execDeinit_next {s t : State} (h : execDeinit s = .next t) :
    t = (s.setInitialized false).respond (okResponse 0) := returnOk_next h

theorem execSetLed_next {idx : BitVec 16} {r g b : Byte} {s t : State} (h : execSetLed idx r g b s = .next t) :
    (∃ hi : idx.toNat < Config.stripLen, t = (s.setLed idx.toNat hi ⟨r, g, b⟩).respond (okResponse 0)) ∨
    (Config.stripLen ≤ idx.toNat ∧ t = s.respond (ErrorKind.invalidIndex (indexOperand idx)).response) := by
  simp only [execSetLed, indexOperand_toNat] at h
  split at h
  · exact .inl ⟨‹_›, returnOk_next h⟩
  · exact .inr ⟨by omega, raise_next h⟩

theorem execSetAllLeds_next {r g b : Byte} {s t : State} (h : execSetAllLeds r g b s = .next t) :
    t = (s.fillStrip ⟨r, g, b⟩).respond (okResponse 0) := returnOk_next h

theorem execClearLeds_next {s t : State} (h : execClearLeds s = .next t) :
    t = (s.fillStrip ⟨0, 0, 0⟩).respond (okResponse 0) := returnOk_next h

theorem execGetLed_next {idx : BitVec 16} {s t : State} (h : execGetLed idx s = .next t) :
    (∃ hi : idx.toNat < Config.stripLen, t = s.respond (okResponse (s.led idx.toNat hi).data)) ∨
    (Config.stripLen ≤ idx.toNat ∧ t = s.respond (ErrorKind.invalidIndex (indexOperand idx)).response) := by
  simp only [execGetLed, indexOperand_toNat] at h
  split at h
  · exact .inl ⟨‹_›, returnOk_next h⟩
  · exact .inr ⟨by omega, raise_next h⟩

theorem execEncBit_next {bit : BitVec 1} {s t : State} (h : execEncBit bit s = .next t) :
    t = s.respond (okResponse (symbolData (encBit (bitOperand bit)))) := returnOk_next h

theorem transmit_next {s t : State} (h : transmit s = .next t) :
    ∃ st em, writeResult s.writeAnswer (payloadOf s) = some (st, em) ∧
      t = (((s.memWrite 0 (frameEncode s.strip)).writeAsked).appendTxLog ⟨payloadOf s, st, em⟩).respond
        (statusResponse st) := by
  rw [transmit_eq] at h
  split at h
  · rename_i st em hw
    rw [finishUpdate_eq, Host.Outcome.next.injEq] at h
    exact ⟨st, em, hw, h.symm⟩
  · simp at h

theorem execUpdate_next {s t : State} (h : execUpdate s = .next t) :
    (s.initialized = false ∧ t = s.respond ErrorKind.deviceNotReady.response) ∨
    (s.initialized = true ∧ s.readyAnswer = false ∧ t = s.readyAsked.respond ErrorKind.deviceNotReady.response) ∨
    (s.initialized = true ∧ s.readyAnswer = true ∧ transmit s.readyAsked = .next t) := by
  rw [execUpdate_eq] at h
  split at h
  · rename_i hi
    split at h
    · exact .inr (.inr ⟨hi, ‹_›, h⟩)
    · rename_i hr
      exact .inr (.inl ⟨hi, Bool.eq_false_iff.mpr hr, raise_next h⟩)
  · rename_i hi
    exact .inl ⟨Bool.eq_false_iff.mpr hi, raise_next h⟩

/-- Everything a command word can do: what its command does, or IllegalCommand. -/
theorem runWord_next {w : CmdWord} {s t : State} (h : runWord w s = .next t) :
    (∃ i, decode w = .ok i ∧ exec i s = .next t) ∨
    (∃ e, decode w = .error e ∧ t = s.respond ErrorKind.illegalCommand.response) := by
  unfold runWord at h
  split at h
  · exact .inl ⟨_, ‹_›, h⟩
  · exact .inr ⟨_, ‹_›, raise_next h⟩

/-- Everything a step can do: wait, or run the accepted word and deliver its response. -/
theorem step_next {s t : State} (h : step s = .next t) :
    (s.accept = none ∧ t = s) ∨
    ∃ k w a u, s.accept = some (k, w, a) ∧ runWord w a = .next u ∧ t = u.deliver k := by
  unfold step at h
  split at h
  · rw [Host.Outcome.next.injEq] at h
    exact .inl ⟨‹_›, h.symm⟩
  · rename_i k w a ha
    unfold deliverOutcome at h
    split at h
    · rename_i u hu
      rw [Host.Outcome.next.injEq] at h
      exact .inr ⟨k, w, a, u, ha, hu, h.symm⟩
    · simp at h
    · simp at h

end Sys2Proof.Machine
end

