-- ==== Sys2Proof/Tests/Slice0.lean ====
section
/-! SUPPORT. Tests: words and vectors written out in spec/ (95_test_vectors.md and the commands' examples), the refusals of
the well-formedness checks, and a witness for the hypotheses of every statement that has some. -/

namespace Sys2Proof.Tests

open Sys2Proof.Machine

/-! ## Helpers -/

/-- Reset, with the transport's next answers fixed. -/
def scripted (ready : List Bool) (writes : List WriteAnswer) : State :=
  { State.reset with transport := { Transport.untouched with readyAnswers := ready, writeAnswers := writes } }

/-- The same, initialised. -/
def up (ready : List Bool) (writes : List WriteAnswer) : State := { scripted ready writes with initialized := true }

/-- The response of a command. -/
def responseOf (o : Outcome) : Option Response :=
  match o with
  | .next t => t.response
  | .fault _ => none
  | .refused _ => none

/-- A property of the state after a command. -/
def afterwards (o : Outcome) (p : State → Bool) : Bool :=
  match o with
  | .next t => p t
  | .fault _ => false
  | .refused _ => false

/-- Reset, with one host that has these words to issue, and the transport's answers fixed. -/
def hosted (ws : List CmdWord) (ready : List Bool) (writes : List WriteAnswer) : State :=
  { scripted ready writes with hosts := [⟨ws, []⟩] }

/-! ## Decoding and encoding: words from the commands' examples and 95_test_vectors.md -/

theorem test_decode_init : decode 0x010000000000#48 = .ok .init := rfl
theorem test_decode_deinit : decode 0x020000000000#48 = .ok .deinit := rfl
theorem test_decode_set_led : decode 0x100003123456#48 = .ok (.setLed 3 0x12 0x34 0x56) := rfl
theorem test_decode_set_all_leds : decode 0x110000323232#48 = .ok (.setAllLeds 50 50 50) := rfl
theorem test_decode_clear_leds : decode 0x120000000000#48 = .ok .clearLeds := rfl
theorem test_decode_get_led : decode 0x130009000000#48 = .ok (.getLed 9) := rfl
theorem test_decode_enc_bit_1 : decode 0x200000000001#48 = .ok (.encBit 1) := rfl
theorem test_decode_enc_bit_0 : decode 0x200000000000#48 = .ok (.encBit 0) := rfl
theorem test_decode_update : decode 0x300000000000#48 = .ok .update := rfl
/-- V-D6: the widest operands. -/
theorem test_decode_set_led_all_ones : decode 0x10FFFFFFFFFF#48 = .ok (.setLed 65535 0xFF 0xFF 0xFF) := rfl
/-- V-D1 to V-D4. -/
theorem test_decode_reserved : decode 0x000000000000#48 = .error (.reservedOpcode 0x00) ∧
    decode 0xFFFFFFFFFFFF#48 = .error (.reservedOpcode 0xFF) ∧ decode 0x030000000000#48 = .error (.reservedOpcode 0x03) ∧
    decode 0x210000000000#48 = .error (.reservedOpcode 0x21) := ⟨rfl, rfl, rfl, rfl⟩
/-- V-B4, V-B5, V-S6, V-S9, V-S12, V-T11, V-D5, and R81's corner case. -/
theorem test_decode_nonzero_fields : decode 0x200000000002#48 = .error (.nonzeroField 0x20) ∧
    decode 0x200001000001#48 = .error (.nonzeroField 0x20) ∧ decode 0x2000000000FF#48 = .error (.nonzeroField 0x20) ∧
    decode 0x130000000001#48 = .error (.nonzeroField 0x13) ∧ decode 0x110005123456#48 = .error (.nonzeroField 0x11) ∧
    decode 0x120000000001#48 = .error (.nonzeroField 0x12) ∧ decode 0x300000000001#48 = .error (.nonzeroField 0x30) ∧
    decode 0x010000000100#48 = .error (.nonzeroField 0x01) := ⟨rfl, rfl, rfl, rfl, rfl, rfl, rfl, rfl⟩
/-- V-S1, P3 and V-B1, encoded. -/
theorem test_encode : encode (.setLed 9 0xFF 0xFF 0xFF) = 0x100009FFFFFF#48 ∧
    encode (.setAllLeds 50 50 50) = 0x110000323232#48 ∧ encode (.encBit 1) = 0x200000000001#48 := by decide
theorem test_table_word : decodeTableWord 48 0x130000000000 = some (.getLed 0) ∧ decodeTableWord 48 0 = none ∧
    decodeTableWord 48 (2 ^ 48 + 0x130000000000) = none := ⟨rfl, rfl, rfl⟩

/-! ## Well-formedness: an ill-formed term for each check (R68, R7) -/

theorem test_well_formed_boundary : AsmLine.wellFormed ⟨.setLed, [65535, 255, 255, 255]⟩ = true := by decide
theorem test_index_too_large : AsmLine.check ⟨.getLed, [65536]⟩ = some (.indexTooLarge 65536) := by decide
theorem test_channel_too_large : AsmLine.check ⟨.setAllLeds, [0, 256, 0]⟩ = some (.channelTooLarge 256) := by decide
theorem test_bit_too_large : AsmLine.check ⟨.encBit, [2]⟩ = some (.bitTooLarge 2) := by decide
theorem test_too_few_operands : AsmLine.check ⟨.setLed, [0, 0, 0]⟩ = some .wrongOperandCount := by decide
theorem test_too_many_operands : AsmLine.check ⟨.init, [0]⟩ = some .wrongOperandCount := by decide
theorem test_config : Config.wellFormed = true := by decide
theorem test_config_no_led : Config.valuesFit 0 16 64 64 = false := by decide
theorem test_config_too_many_leds : Config.valuesFit 65536 16 64 1572928 = false := by decide
theorem test_config_wrong_length : Config.valuesFit 10 16 64 305 = false := by decide

/-- R100's example, as text. -/
theorem test_assemble_text : assembleText "set_led(3, 0x12, 0x34, 0x56)".toList = .ok 0x100003123456#48 := by decide
theorem test_assemble_text_no_operands : assembleText "clear_leds()".toList = .ok 0x120000000000#48 := by decide
theorem test_assemble_text_unknown : assembleText "start_breathing()".toList = .error .unknownMnemonic := by decide
theorem test_assemble_text_malformed : assembleText "enc_bit(1".toList = .error .malformedText ∧
    assembleText "enc_bit(0x)".toList = .error .malformedText := by decide
/-- The order of errors that log entry 14 chooses. -/
theorem test_assemble_text_error_order :
    assembleText "blink(1".toList = .error .malformedText ∧
    assembleText "blink(zz)".toList = .error .unknownMnemonic ∧
    assembleText "get_led(70000, zz)".toList = .error .malformedText ∧
    assembleText "get_led(70000, 1)".toList = .error (.indexTooLarge 70000) ∧
    assembleText "get_led(7, 70000)".toList = .error .wrongOperandCount := by decide
theorem test_assemble_text_never_truncates : assembleText "enc_bit(2)".toList = .error (.bitTooLarge 2) := by decide

/-! ## The encoders -/

/-- V-B1, V-B2, V-B3. -/
theorem test_enc_bit : responseOf (exec (.encBit 1) State.reset) = some ⟨0x00, 0x0000FC, 0⟩ ∧
    responseOf (exec (.encBit 0) (up [] [])) = some ⟨0x00, 0x0000C0, 0⟩ := by decide

/-- W4: the group of RGB = (0x01, 0x02, 0x04). -/
theorem test_symbols_W4 : Led.symbols ⟨0x01, 0x02, 0x04⟩ =
    [0xC0, 0xC0, 0xC0, 0xC0, 0xC0, 0xC0, 0xFC, 0xC0,
     0xC0, 0xC0, 0xC0, 0xC0, 0xC0, 0xC0, 0xC0, 0xFC,
     0xC0, 0xC0, 0xC0, 0xC0, 0xC0, 0xFC, 0xC0, 0xC0] := by decide

/-- V-F3: group 9, and the gap's first and last byte. -/
theorem test_frame_V_F3 :
    ((frameEncode (State.reset.strip.set 9 ⟨0x12, 0x34, 0x56⟩)).drop 216).take 25 =
    [0xC0, 0xC0, 0xFC, 0xFC, 0xC0, 0xFC, 0xC0, 0xC0,
     0xC0, 0xC0, 0xC0, 0xFC, 0xC0, 0xC0, 0xFC, 0xC0,
     0xC0, 0xFC, 0xC0, 0xFC, 0xC0, 0xFC, 0xFC, 0xC0, 0x00] := by decide +kernel

/-- V-F7, V-F8: the only 0xFC. -/
theorem test_frame_channel_order : (Led.symbols ⟨0x80, 0, 0⟩).idxOf 0xFC = 8 ∧ (Led.symbols ⟨0, 0, 0x01⟩).idxOf 0xFC = 23 := by
  decide

/-! ## The store -/

/-- V-S1, V-S4: the last record. -/
theorem test_set_led : afterwards (exec (.setLed 9 255 255 255) State.reset)
    (fun t => t.response == some ⟨0x00, 0, 0⟩ && t.strip[9] == ⟨0xFF, 0xFF, 0xFF⟩ && t.strip[8] == ⟨0, 0, 0⟩ &&
      responseOf (exec (.getLed 9) t) == some ⟨0x00, 0xFFFFFF, 0⟩) = true := by decide
/-- V-S2, V-S3. -/
theorem test_set_led_invalid : responseOf (exec (.setLed 10 255 255 255) State.reset) = some ⟨0x02, 0, 0⟩ ∧
    afterwards (exec (.setLed 65535 1 2 3) State.reset)
      (fun t => t.response == some ⟨0x02, 0, 0⟩ && t.strip == State.reset.strip) = true := by decide
/-- R107's example: RGB order, not wire order. -/
theorem test_get_led_order : responseOf (exec (.getLed 0) { State.reset with strip := State.reset.strip.set 0 ⟨1, 2, 4⟩ }) =
    some ⟨0x00, 0x010204, 0⟩ := by decide
/-- V-S5, V-S7. -/
theorem test_get_led_bounds : responseOf (exec (.getLed 10) State.reset) = some ⟨0x02, 0, 0⟩ ∧
    responseOf (exec (.getLed 0) State.reset) = some ⟨0x00, 0, 0⟩ := by decide
/-- V-S8. -/
theorem test_set_all_leds : afterwards (exec (.setAllLeds 0x12 0x34 0x56) State.reset)
    (fun t => t.strip[0] == ⟨0x12, 0x34, 0x56⟩ && t.strip[9] == ⟨0x12, 0x34, 0x56⟩) = true := by decide
/-- V-S10, after V-S8. -/
theorem test_clear_leds : afterwards
    (exec .clearLeds { State.reset with strip := Vector.replicate 10 ⟨0x12, 0x34, 0x56⟩ })
    (fun t => t.strip == State.reset.strip && t.response == some ⟨0x00, 0, 0⟩) = true := by decide

/-! ## The transmit driver -/

/-- V-T2, V-T3, V-T9. -/
theorem test_init : responseOf (exec .init (scripted [false] [])) = some ⟨0x01, 0, 0⟩ ∧
    afterwards (exec .init (scripted [true] [])) (fun t => t.initialized && t.response == some ⟨0x00, 0, 0⟩) = true ∧
    afterwards (exec .init (up [false] [])) (fun t => t.initialized && t.response == some ⟨0x01, 0, 0⟩) = true := by decide
/-- V-T7, V-T10. -/
theorem test_deinit : afterwards (exec .deinit (up [] []))
    (fun t => !t.initialized && t.response == some ⟨0x00, 0, 0⟩ && t.transport == (up [] []).transport) = true ∧
    responseOf (exec .deinit State.reset) = some ⟨0x00, 0, 0⟩ := by decide
/-- V-T1, V-T4: not ready, nothing sent; not initialised, not even asked. -/
theorem test_update_not_ready : afterwards (exec .update (scripted [true] []))
      (fun t => t.response == some ⟨0x01, 0, 0⟩ && t.transport.readyQueries == 0) = true ∧
    afterwards (exec .update (up [false] []))
      (fun t => t.response == some ⟨0x01, 0, 0⟩ && t.symbuf == [] && t.txLog == []) = true := by decide
/-- V-T5, W5. -/
theorem test_update_ok : afterwards (exec .update (up [true] [.returned 0 0]))
    (fun t => t.response == some ⟨0x00, 0, 0⟩ && t.txLog ==
      [⟨List.replicate 240 0xC0 ++ List.replicate 64 0x00, .ok, List.replicate 240 0xC0 ++ List.replicate 64 0x00⟩]) =
    true := by decide +kernel
/-- V-T6. -/
theorem test_update_failed : afterwards (exec .update (up [true] [.returned 5 0]))
    (fun t => t.response == some ⟨0x03, 0, 5⟩ && t.txLog ==
      [⟨List.replicate 240 0xC0 ++ List.replicate 64 0x00, .fail 5, []⟩] && t.symbufByte 239 == 0xC0 &&
      t.symbufByte 240 == 0x00 && t.symbuf.length == 304) = true := by decide +kernel
/-- R165. -/
theorem test_update_stuck : exec .update (up [true] [.neverReturns]) = .fault .txWriteNeverReturns := rfl

/-! ## The step -/

/-- A table row's word is the next step's command. -/
theorem test_step_after_withFetchWord : afterwards (step (State.reset.withFetchWord 48 0x100003123456))
    (fun t => t.strip[3] == ⟨0x12, 0x34, 0x56⟩ && t.hosts == [⟨[], [⟨0x00, 0, 0⟩]⟩] && t.response == none) = true := by decide
/-- Each command runs as the first after reset, whatever the transport answers. -/
theorem test_first_step_init : afterwards (step (State.reset.withFetchWord 48 0x010000000000)) (fun _ => true) = true := rfl
theorem test_first_step_update : afterwards (step (State.reset.withFetchWord 48 0x300000000000))
    (fun t => t.hosts == [⟨[], [⟨0x01, 0, 0⟩]⟩]) = true := by decide
/-- V-D1 at the port: an illegal word completes, and its host is told. -/
theorem test_step_illegal : afterwards (step (hosted [0x000000000000#48] [] []))
    (fun t => t.hosts == [⟨[], [⟨0x04, 0, 0⟩]⟩]) = true := by decide
theorem test_step_waits : step State.reset = .next State.reset := rfl
/-- P5: with two hosts, the turn says whose command runs. -/
theorem test_step_second_host : afterwards
    (step { State.reset with hosts := [⟨[0x110000FF0000#48], []⟩, ⟨[0x120000000000#48], []⟩], turns := [1] })
    (fun t => t.hosts == [⟨[0x110000FF0000#48], []⟩, ⟨[], [⟨0x00, 0, 0⟩]⟩]) = true := by decide

/-! ## Witnesses: states and operands that meet the hypotheses of the statements, clause by clause -/

theorem witness_ResetLeavesTheSpecsValues : (9 : Nat) < 10 ∧ (303 : Nat) < 304 := by decide
theorem witness_TxcfgIsHardwired : ∃ t, exec .clearLeds State.reset = .next t := ⟨_, rfl⟩
theorem witness_InitQueries_word : (0x010000000000#48 &&& 0xFFFFFFFFFFFF#48) = 0x010000000000#48 := by decide
theorem witness_InitQueries_illegal : (0x010000000001#48).extractLsb' 40 8 = 0x01#8 ∧
    (0x010000000001#48 &&& 0xFFFFFFFFFFFF#48) ≠ 0x010000000000#48 := by decide
theorem witness_InitQueries_ready : (scripted [true] []).readyAnswer = true := rfl
theorem witness_InitQueries_notReady : (scripted [false] []).readyAnswer = false := rfl
theorem witness_InitHands : (up [true] []).readyAnswer = true := rfl
theorem witness_Deinit_word : (0x020000000000#48 &&& 0xFFFFFFFFFFFF#48) = 0x020000000000#48 := by decide
theorem witness_Deinit_illegal : (0x02FFFFFFFFFF#48).extractLsb' 40 8 = 0x02#8 ∧
    (0x02FFFFFFFFFF#48 &&& 0xFFFFFFFFFFFF#48) ≠ 0x020000000000#48 := by decide
/-- After `deinit`, an `init` under a false draw and a store command. -/
theorem witness_Deinit_thenUpdate : ∃ t u, exec .deinit (up [false] []) = .next t ∧
    NoInitSucceeds [.init, .clearLeds] t ∧ execList [.init, .clearLeds] t = .next u := by
  refine ⟨_, _, rfl, ⟨fun _ => rfl, fun t _ => ⟨fun h => ?_, fun _ _ => trivial⟩⟩, rfl⟩
  simp at h
theorem witness_SetLed_word : (0x10FFFFFFFFFF#48 &&& 0xFF0000000000#48) = 0x100000000000#48 := by decide
theorem witness_SetLed_valid : (9#16).toNat < 10 := by decide
theorem witness_SetLed_invalid : 10 ≤ (10#16).toNat ∧ 10 ≤ (65535#16).toNat := by decide
theorem witness_SetAllLeds_word : (0x110000FFFFFF#48 &&& 0xFFFFFF000000#48) = 0x110000000000#48 := by decide
theorem witness_SetAllLeds_illegal : (0x110001000000#48).extractLsb' 40 8 = 0x11#8 ∧
    (0x110001000000#48 &&& 0xFFFFFF000000#48) ≠ 0x110000000000#48 := by decide
theorem witness_ClearLeds_word : (0x120000000000#48 &&& 0xFFFFFFFFFFFF#48) = 0x120000000000#48 := by decide
theorem witness_ClearLeds_illegal : (0x120000000001#48).extractLsb' 40 8 = 0x12#8 ∧
    (0x120000000001#48 &&& 0xFFFFFFFFFFFF#48) ≠ 0x120000000000#48 := by decide
theorem witness_GetLed_word : (0x13FFFF000000#48 &&& 0xFF0000FFFFFF#48) = 0x130000000000#48 := by decide
theorem witness_GetLed_illegal : (0x130000000001#48).extractLsb' 40 8 = 0x13#8 ∧
    (0x130000000001#48 &&& 0xFF0000FFFFFF#48) ≠ 0x130000000000#48 := by decide
theorem witness_GetLed_index : (0#16).toNat < 10 ∧ (9#16).toNat < 10 ∧ 10 ≤ (10#16).toNat := by decide
theorem witness_EncBit_word : (0x200000000001#48 &&& 0xFFFFFFFFFFFE#48) = 0x200000000000#48 := by decide
theorem witness_EncBit_illegal : (0x200000000003#48).extractLsb' 40 8 = 0x20#8 ∧
    (0x200000000003#48 &&& 0xFFFFFFFFFFFE#48) ≠ 0x200000000000#48 := by decide
theorem witness_Update_word : (0x300000000000#48 &&& 0xFFFFFFFFFFFF#48) = 0x300000000000#48 := by decide
theorem witness_Update_illegal : (0x300000000001#48).extractLsb' 40 8 = 0x30#8 ∧
    (0x300000000001#48 &&& 0xFFFFFFFFFFFF#48) ≠ 0x300000000000#48 := by decide
theorem witness_Update_notInitialized : State.reset.initialized = false := rfl
theorem witness_Update_notReady : (up [false] []).initialized = true ∧ (up [false] []).readyAnswer = false := ⟨rfl, rfl⟩
theorem witness_Update_ok : (up [true] [.returned 0 7]).initialized = true ∧ (up [true] [.returned 0 7]).readyAnswer = true ∧
    (up [true] [.returned 0 7]).writeAnswer = .returned 0 7 := ⟨rfl, rfl, rfl⟩
theorem witness_Update_failed : (up [true] [.returned 1 304]).initialized = true ∧
    (up [true] [.returned 1 304]).readyAnswer = true ∧ (1#32) ≠ 0 ∧
    (up [true] [.returned 1 304]).writeAnswer = .returned 1 304 := ⟨rfl, rfl, by decide, rfl⟩
theorem witness_Symbols_equal : encBit true = encBit true := rfl
theorem witness_Symbols_runs : (2 : Nat) < 8 ∧ (1 : Nat) < 8 ∧ (encBit true).getLsbD 2 = true ∧
    (encBit true).getLsbD 1 = false := by decide
theorem witness_Frame_positions : (9 : Nat) < 10 ∧ (7 : Nat) < 8 ∧ (23 : Nat) < 24 ∧ (63 : Nat) < 64 := by decide
theorem witness_FrameBytes : (frameEncode State.reset.strip)[239]? = some 0xC0#8 ∧ 239 < 24 * 10 ∧
    (frameEncode State.reset.strip)[240]? = some 0x00#8 ∧ 24 * 10 ≤ 240 := by decide +kernel
theorem witness_FrameInjective : frameEncode State.reset.strip = frameEncode State.reset.strip := rfl
/-- Between the two, every command that does not write STRIP. -/
theorem witness_GetLedReads : ∃ t u, (9#16).toNat < 10 ∧ exec (.setLed 9 1 2 3) (up [true, true] [.returned 0 0]) = .next t ∧
    (∀ i ∈ [Instr.update, .init, .deinit, .getLed 0, .encBit 1], writesStrip i = false) ∧
    execList [.update, .init, .deinit, .getLed 0, .encBit 1] t = .next u := ⟨_, _, by decide, rfl, by decide, rfl⟩
theorem witness_GetLedReads_other : (8 : Nat) < 10 ∧ (8 : Nat) ≠ (9#16).toNat := by decide
theorem witness_OutOfRange : (9#16).toNat < 10 ∧ 10 ≤ (10#16).toNat := by decide
theorem witness_Store_nonwriter : ∃ t, exec .update (up [true] [.returned 3 10]) = .next t ∧
    Instr.mnemonic .update ≠ .setLed ∧ Instr.mnemonic .update ≠ .setAllLeds ∧ Instr.mnemonic .update ≠ .clearLeds :=
  ⟨_, rfl, by decide, by decide, by decide⟩
theorem witness_Store_storeCommand : ∃ t, exec (.getLed 10) State.reset = .next t ∧
    (Instr.mnemonic (.getLed 10) = .setLed ∨ Instr.mnemonic (.getLed 10) = .setAllLeds ∨
      Instr.mnemonic (.getLed 10) = .clearLeds ∨ Instr.mnemonic (.getLed 10) = .getLed) :=
  ⟨_, rfl, by decide⟩
theorem witness_Initialized_init : (∃ t, exec .init (scripted [true] []) = .next t) ∧
    (scripted [true] []).readyAnswer = true ∧ (∃ t, exec .init (up [false] []) = .next t) ∧
    (up [false] []).readyAnswer = false := ⟨⟨_, rfl⟩, rfl, ⟨_, rfl⟩, rfl⟩
theorem witness_Initialized_deinit : ∃ t, exec .deinit (up [] []) = .next t := ⟨_, rfl⟩
theorem witness_Initialized_others : ∃ t, exec .update (up [true] [.returned 0 0]) = .next t ∧ Instr.update ≠ .init ∧
    Instr.update ≠ .deinit := ⟨_, rfl, by decide, by decide⟩
theorem witness_Initialized_unread : ∃ t, Instr.clearLeds ≠ .update ∧ exec .clearLeds State.reset = .next t :=
  ⟨_, by decide, rfl⟩
theorem witness_TxLog : ∃ t, exec .update (up [true] [.returned 5 24]) = .next t := ⟨_, rfl⟩
theorem witness_Symbuf_notUpdate : ∃ t, exec .init (scripted [true] []) = .next t ∧ Instr.init ≠ .update :=
  ⟨_, rfl, by decide⟩
theorem witness_Symbuf_notReady : ∃ t, exec .update (up [false] []) = .next t ∧
    ((up [false] []).initialized = false ∨ (up [false] []).readyAnswer = false) := ⟨_, rfl, .inr rfl⟩
theorem witness_Symbuf_sent : ∃ t, exec .update (up [true] [.returned 0 0]) = .next t ∧
    (up [true] [.returned 0 0]).initialized = true ∧ (up [true] [.returned 0 0]).readyAnswer = true := ⟨_, rfl, rfl, rfl⟩
theorem witness_Symbuf_offsets : (frameEncode State.reset.strip)[303]? = some 0x00#8 ∧
    (frameEncode State.reset.strip).length ≤ 304 := by decide +kernel
theorem witness_ResultCodes : ∃ t, runWord 0x310000000000#48 State.reset = .next t := ⟨_, rfl⟩
theorem witness_CommandsReturn : ∃ t, exec .init (scripted [false] []) = .next t := ⟨_, rfl⟩
theorem witness_Response_failed : ∃ t x, runWord 0x300000000000#48 (up [true] [.returned 7 0]) = .next t ∧
    t.response = some x ∧ x.result = 0x03#8 := ⟨_, _, rfl, rfl, rfl⟩
theorem witness_Response_noData : ∃ t x, runWord 0x13000A000000#48 State.reset = .next t ∧ t.response = some x ∧
    (∀ idx, decode 0x13000A000000#48 = .ok (.getLed idx) → x.result ≠ 0x00#8) ∧
    (∀ b, decode 0x13000A000000#48 ≠ .ok (.encBit b)) ∧ x.result ≠ 0x03#8 := by
  refine ⟨_, _, rfl, rfl, fun _ _ => by decide, fun b h => ?_, by decide⟩
  have : decode 0x13000A000000#48 = .ok (.getLed 10) := rfl
  simp [this] at h
theorem witness_Priority_illegal : decode 0x13000A000001#48 = .error (.nonzeroField 0x13) := rfl
theorem witness_Priority_write : ∃ t, exec .update (up [true] [.returned 9 0]) = .next t ∧
    t.response = some ⟨0x03#8, 0#24, 9⟩ := ⟨_, rfl, rfl⟩
theorem witness_Priority_notBoth : ∃ t t' x x', exec (.init) (scripted [false] []) = .next t ∧ t.response = some x ∧
    exec (.init) (scripted [false] []) = .next t' ∧ t'.response = some x' ∧ x.result = 0x01#8 :=
  ⟨_, _, _, _, rfl, rfl, rfl, rfl, rfl⟩
theorem witness_ErrorsBeforeTheWrite : ∃ t x, runWord 0x10000AFFFFFF#48 State.reset = .next t ∧ t.response = some x ∧
    x.result ≠ 0x00#8 ∧ x.result ≠ 0x03#8 := ⟨_, _, rfl, rfl, by decide, by decide⟩
theorem witness_UpdateOutcomes_notReady : ∃ t x, exec .update (up [false] []) = .next t ∧ t.response = some x ∧
    x.result = 0x01#8 := ⟨_, _, rfl, rfl, rfl⟩
theorem witness_UpdateOutcomes_failed : ∃ t x, exec .update (up [true] [.returned 5 24]) = .next t ∧ t.response = some x ∧
    x.result = 0x03#8 := ⟨_, _, rfl, rfl, rfl⟩
theorem witness_UpdateOutcomes_ok : ∃ t x, exec .update (up [true] [.returned 0 0]) = .next t ∧ t.response = some x ∧
    x.result = 0x00#8 := ⟨_, _, rfl, rfl, rfl⟩
theorem witness_FailedWrites : (1#32) ≠ 0 ∧ [0xC0#8] <+: [0xC0#8, 0xFC#8] := by decide
theorem witness_TransportStatus : (up [true] [.returned 0xFFFFFFFB 24]).initialized = true ∧
    (up [true] [.returned 0xFFFFFFFB 24]).readyAnswer = true ∧ (0xFFFFFFFB#32) ≠ 0 ∧
    (up [true] [.returned 0xFFFFFFFB 24]).writeAnswer = .returned 0xFFFFFFFB 24 := ⟨rfl, rfl, by decide, rfl⟩
theorem witness_UpdateNeedsInit_none : ∃ t, (scripted [false] []).initialized = false ∧
    NoInitSucceeds [.init, .setAllLeds 1 2 3] (scripted [false] []) ∧
    execList [.init, .setAllLeds 1 2 3] (scripted [false] []) = .next t := by
  refine ⟨_, rfl, ⟨fun _ => rfl, fun t _ => ⟨fun h => ?_, fun _ _ => trivial⟩⟩, rfl⟩
  simp at h
theorem witness_UpdateNeedsInit_sequence : ∃ t u, exec .init (scripted [true, true] [.returned 0 0]) = .next t ∧
    (scripted [true, true] [.returned 0 0]).readyAnswer = true ∧
    (∀ i ∈ [Instr.setLed 9 1 2 3, .getLed 10], i.mnemonic ∈ [.setLed, .setAllLeds, .clearLeds, .getLed]) ∧
    execList [.setLed 9 1 2 3, .getLed 10] t = .next u ∧ u.readyAnswer = true ∧ u.writeAnswer = .returned 0 0 :=
  ⟨_, _, rfl, rfl, by decide, rfl, rfl, rfl⟩
theorem witness_UpdateNeedsInit_stores : State.reset.initialized = false ∧ (9#16).toNat < 10 := by decide
theorem witness_FirstUpdate : ∃ t u, SameBlock State.reset (scripted [true, true] [.returned 0 0]) ∧
    exec .init (scripted [true, true] [.returned 0 0]) = .next t ∧ t.initialized = true ∧ exec .update t = .next u ∧
    u.response = some ⟨0x00#8, 0#24, 0#32⟩ := ⟨_, _, ⟨rfl, rfl, rfl, rfl⟩, rfl, rfl, rfl, rfl⟩
theorem witness_Idempotent_init : ∃ t, Instr.init ≠ .update ∧ t.readyAnswer = (scripted [true, true] []).readyAnswer ∧
    exec .init (scripted [true, true] []) = .next t := by
  refine ⟨_, by decide, ?_, rfl⟩
  rfl
theorem witness_Idempotent_update : ∃ t, (up [true] [.returned 2 0]).initialized = true ∧
    (up [true] [.returned 2 0]).readyAnswer = true ∧ exec .update (up [true] [.returned 2 0]) = .next t := ⟨_, rfl, rfl, rfl⟩
theorem witness_UpdatesWithoutStores : ∃ t u v a b, exec .update (up [true, true] [.returned 0 0, .returned 8 1]) = .next t ∧
    t.txLog = (up [true, true] [.returned 0 0, .returned 8 1]).txLog ++ [a] ∧
    (∀ i ∈ [Instr.getLed 0], writesStrip i = false) ∧ execList [.getLed 0] t = .next u ∧ exec .update u = .next v ∧
    v.txLog = u.txLog ++ [b] := ⟨_, _, _, _, _, rfl, rfl, by decide, rfl, rfl, rfl⟩
theorem witness_Reserved : ((0x000000000000#48).extractLsb' 40 8).toNat = 0 ∧
    0x03 ≤ ((0x030000000000#48).extractLsb' 40 8).toNat ∧ ((0x0F0000000000#48).extractLsb' 40 8).toNat ≤ 0x0F ∧
    0x14 ≤ ((0x140000000000#48).extractLsb' 40 8).toNat ∧ ((0x1F0000000000#48).extractLsb' 40 8).toNat ≤ 0x1F ∧
    0x21 ≤ ((0x210000000000#48).extractLsb' 40 8).toNat ∧ ((0x2F0000000000#48).extractLsb' 40 8).toNat ≤ 0x2F ∧
    0x31 ≤ ((0x310000000000#48).extractLsb' 40 8).toNat := by decide
theorem witness_NoRow : ∀ row ∈ opcodeMap, (0x110001000000#48) &&& row.mask ≠ row.pattern := by decide
theorem witness_OneRow : (⟨.encBit, 0x200000000000#48, 0xFFFFFFFFFFFE#48⟩ : OpcodeRow) ∈ opcodeMap ∧
    OpcodeRow.selects ⟨.encBit, 0x200000000000#48, 0xFFFFFFFFFFFE#48⟩ 0x200000000001#48 = true := by decide
theorem witness_EncodeOfDecode : decode 0x13FFFF000000#48 = .ok (.getLed 65535) := rfl
theorem witness_Assembler : assemble ⟨.setLed, [65535, 255, 0, 255]⟩ = .ok (.setLed 65535 255 0 255) := rfl
theorem witness_StepRuns_next : ∃ a t, (hosted [0x120000000000#48] [] []).accept = some (0, 0x120000000000#48, a) ∧
    decode 0x120000000000#48 = .ok .clearLeds ∧ exec .clearLeds a = .next t := ⟨_, _, rfl, rfl, rfl⟩
theorem witness_StepRuns_fault : ∃ a,
    State.accept { up [true] [.neverReturns] with hosts := [⟨[0x300000000000#48], []⟩] } = some (0, 0x300000000000#48, a) ∧
    decode 0x300000000000#48 = .ok .update ∧ exec .update a = .fault .txWriteNeverReturns := ⟨_, rfl, rfl, rfl⟩
theorem witness_StepRuns_illegal : ∃ a, (hosted [0x310000000000#48] [] []).accept = some (0, 0x310000000000#48, a) ∧
    decode 0x310000000000#48 = .error (.reservedOpcode 0x31) := ⟨_, rfl, rfl⟩
theorem witness_StepWaits : ∀ h ∈ (hosted [] [] []).hosts, h.commands = [] := by decide
theorem witness_StepAnswers : ∃ t, (∃ h ∈ (hosted [0x120000000000#48] [] []).hosts, h.commands ≠ []) ∧
    step (hosted [0x120000000000#48] [] []) = .next t := ⟨_, by decide, rfl⟩
theorem witness_AnyHost : ([⟨[0x110000FF0000#48], []⟩, ⟨[0x120000000000#48], []⟩] : List CommandHost)[1]? =
    some ⟨[0x120000000000#48], []⟩ := rfl
theorem witness_OnlyAWrite : step { up [true] [.neverReturns] with hosts := [⟨[0x300000000000#48], []⟩] } =
    .fault .txWriteNeverReturns := rfl
theorem witness_StepsComplete : (scripted [] [.returned 0 0, .returned 1 5]).transportReturns 2 := by
  intro j hj
  match j with
  | 0 => decide
  | 1 => decide
/-- A state that has transmitted and answered, and has a command waiting. -/
theorem witness_EveryStepKeeps_sent : ∃ s t, s.Inv ∧ step s = .next t ∧ s.txLog.length = 1 ∧ s.hosts ≠ [] := by
  refine ⟨{ State.reset with
      symbuf := Memory.cells 0 (frameEncode State.reset.strip)
      txLog := [⟨frameEncode State.reset.strip, .ok, frameEncode State.reset.strip⟩]
      hosts := [⟨[0x120000000000#48], [⟨0x00, 0, 0⟩]⟩] }, _, ⟨by decide +kernel, rfl, ?_, ?_, rfl, by simp [State.reset]⟩,
    rfl, rfl, by simp⟩
  · intro e he
    simp only [List.mem_singleton] at he
    subst he
    exact ⟨⟨_, rfl⟩, rfl⟩
  · intro h hh r hr
    simp only [List.mem_singleton] at hh
    subst hh
    simp only [List.mem_singleton] at hr
    subst hr
    exact .inl ⟨rfl, rfl⟩
theorem witness_SymbolLevels : (7 : Nat) < 8 := by decide
theorem witness_ChainLed : (9 : Nat) < 10 ∧ (10 : Nat) ≤ 10 := by decide

end Sys2Proof.Tests
end

section
/-! SUPPORT. Everything a command can do, as one relation: a constructor per branch of its rule. `exec_eq_next_iff` ties
it to `exec`, so a proof about every command is a case split on the relation, and a constructor runs a command forward. -/

namespace Sys2Proof.Machine

/-- `Completes i s t`: the command `i` issued in `s` completes in `t`. -/
inductive Completes : Instr → State → State → Prop where
  | initReady {s : State} (ready : s.readyAnswer = true) :
      Completes .init s (((s.readyAsked.txConfigure Config.txcfg).setInitialized true).respond (okResponse 0))
  | initNotReady {s : State} (notReady : s.readyAnswer = false) :
      Completes .init s (s.readyAsked.respond ErrorKind.deviceNotReady.response)
  | deinit {s : State} : Completes .deinit s ((s.setInitialized false).respond (okResponse 0))
  | setLed {idx : BitVec 16} {r g b : Byte} {s : State} (valid : idx.toNat < Config.stripLen) :
      Completes (.setLed idx r g b) s ((s.setLed idx.toNat valid ⟨r, g, b⟩).respond (okResponse 0))
  | setLedInvalid {idx : BitVec 16} {r g b : Byte} {s : State} (invalid : Config.stripLen ≤ idx.toNat) :
      Completes (.setLed idx r g b) s (s.respond (ErrorKind.invalidIndex (indexOperand idx)).response)
  | setAllLeds {r g b : Byte} {s : State} :
      Completes (.setAllLeds r g b) s ((s.fillStrip ⟨r, g, b⟩).respond (okResponse 0))
  | clearLeds {s : State} : Completes .clearLeds s ((s.fillStrip ⟨0, 0, 0⟩).respond (okResponse 0))
  | getLed {idx : BitVec 16} {s : State} (valid : idx.toNat < Config.stripLen) :
      Completes (.getLed idx) s (s.respond (okResponse (s.led idx.toNat valid).data))
  | getLedInvalid {idx : BitVec 16} {s : State} (invalid : Config.stripLen ≤ idx.toNat) :
      Completes (.getLed idx) s (s.respond (ErrorKind.invalidIndex (indexOperand idx)).response)
  | encBit {bit : BitVec 1} {s : State} :
      Completes (.encBit bit) s (s.respond (okResponse (symbolData (encBit (bitOperand bit)))))
  | updateUninitialized {s : State} (uninitialized : s.initialized = false) :
      Completes .update s (s.respond ErrorKind.deviceNotReady.response)
  | updateNotReady {s : State} (initialized : s.initialized = true) (notReady : s.readyAnswer = false) :
      Completes .update s (s.readyAsked.respond ErrorKind.deviceNotReady.response)
  | updateTransmits {s : State} {status : TxStatus} {emitted : List Byte} (initialized : s.initialized = true)
      (ready : s.readyAnswer = true) (written : writeResult s.writeAnswer (payloadOf s) = some (status, emitted)) :
      Completes .update s
        (((s.readyAsked.memWrite 0 (frameEncode s.strip)).writeAsked.appendTxLog
          ⟨payloadOf s, status, emitted⟩).respond (statusResponse status))

/-- A command that answers a next state has taken one of the branches of its rule. -/
theorem Completes.of_exec {i : Instr} {s t : State} (h : exec i s = .next t) : Completes i s t := by
  cases i with
  | init =>
    obtain ⟨ready, rfl⟩ | ⟨notReady, rfl⟩ := execInit_next h
    · exact .initReady ready
    · exact .initNotReady notReady
  | deinit => obtain rfl := execDeinit_next h; exact .deinit
  | setLed idx r g b =>
    obtain ⟨valid, rfl⟩ | ⟨invalid, rfl⟩ := execSetLed_next h
    · exact .setLed valid
    · exact .setLedInvalid invalid
  | setAllLeds r g b => obtain rfl := execSetAllLeds_next h; exact .setAllLeds
  | clearLeds => obtain rfl := execClearLeds_next h; exact .clearLeds
  | getLed idx =>
    obtain ⟨valid, rfl⟩ | ⟨invalid, rfl⟩ := execGetLed_next h
    · exact .getLed valid
    · exact .getLedInvalid invalid
  | encBit bit => obtain rfl := execEncBit_next h; exact .encBit
  | update =>
    obtain ⟨uninit, rfl⟩ | ⟨init, notReady, rfl⟩ | ⟨init, ready, ht⟩ := execUpdate_next h
    · exact .updateUninitialized uninit
    · exact .updateNotReady init notReady
    · obtain ⟨status, emitted, written, rfl⟩ := transmit_next ht
      exact .updateTransmits init ready written

theorem transmit_eq_of_written {s : State} {status : TxStatus} {emitted : List Byte}
    (written : writeResult s.writeAnswer (payloadOf s) = some (status, emitted)) :
    transmit s = .next (((s.memWrite 0 (frameEncode s.strip)).writeAsked.appendTxLog
      ⟨payloadOf s, status, emitted⟩).respond (statusResponse status)) := by
  simp only [transmit_eq, written, finishUpdate_eq]

/-- A branch whose condition holds is the one the command takes. -/
theorem Completes.exec_eq {i : Instr} {s t : State} (h : Completes i s t) : exec i s = .next t := by
  cases h with
  | initReady ready => exact (execInit_eq s).trans (if_pos ready)
  | initNotReady notReady => exact (execInit_eq s).trans (if_neg (Bool.eq_false_iff.mp notReady))
  | deinit | setAllLeds | clearLeds | encBit => rfl
  | setLed valid | getLed valid => exact dif_pos ((indexOperand_toNat _).symm ▸ valid)
  | setLedInvalid invalid | getLedInvalid invalid =>
    exact dif_neg ((indexOperand_toNat _).symm ▸ Nat.not_lt.mpr invalid)
  | updateUninitialized uninit => exact (execUpdate_eq s).trans (if_neg (Bool.eq_false_iff.mp uninit))
  | updateNotReady init notReady =>
    exact (execUpdate_eq s).trans ((if_pos init).trans (if_neg (Bool.eq_false_iff.mp notReady)))
  | updateTransmits init ready written =>
    exact (execUpdate_eq s).trans ((if_pos init).trans ((if_pos ready).trans
      (transmit_eq_of_written (s := s.readyAsked) written)))

theorem exec_eq_next_iff {i : Instr} {s t : State} : exec i s = .next t ↔ Completes i s t :=
  ⟨Completes.of_exec, Completes.exec_eq⟩

end Sys2Proof.Machine
end

section
/-! SUPPORT. Reset, TXCFG, INITIALIZED and TX_LOG (10_state.md R25, R26, R29, R31). -/

namespace Sys2Proof.Machine

/-! ## Reset and the hard-wired record -/

/-- Settles O1. -/
theorem resetLeavesTheSpecsValues : Obligations.ResetLeavesTheSpecsValues := by
  refine ⟨fun i h => ?strip, fun k _ => ?symbuf, rfl, rfl, rfl⟩
  case strip => exact Vector.getElem_replicate h
  case symbuf => simp [State.symbufByte, State.reset, Memory.readByte]

/-- Settles O2: TXCFG has no storage, so no command can change it. -/
theorem txcfgIsHardwired : Obligations.TxcfgIsHardwired :=
  ⟨fun _ => ⟨rfl, rfl, rfl, rfl, rfl⟩, fun _ _ _ _ => rfl⟩

/-! ## INITIALIZED -/

theorem Completes.initialized_eq {i : Instr} {s t : State} (h : Completes i s t) (notInit : i ≠ .init)
    (notDeinit : i ≠ .deinit) : t.initialized = s.initialized := by
  cases h with
  | initReady | initNotReady => exact absurd rfl notInit
  | deinit => exact absurd rfl notDeinit
  | setLed | setLedInvalid | setAllLeds | clearLeds | getLed | getLedInvalid | encBit => rfl
  | updateUninitialized | updateNotReady | updateTransmits => rfl

/-- A command other than `update` takes the same branch whatever INITIALIZED holds, with the same outcome up to
INITIALIZED itself. -/
theorem Completes.setInitialized {i : Instr} {s t : State} (h : Completes i s t) (notUpdate : i ≠ .update) (v : Bool) :
    ∃ w, Completes i (s.setInitialized v) (t.setInitialized w) := by
  cases h with
  | initReady ready => exact ⟨true, .initReady ready⟩
  | initNotReady notReady => exact ⟨v, .initNotReady notReady⟩
  | deinit => exact ⟨false, .deinit⟩
  | setLed valid => exact ⟨v, .setLed valid⟩
  | setLedInvalid invalid => exact ⟨v, .setLedInvalid invalid⟩
  | setAllLeds => exact ⟨v, .setAllLeds⟩
  | clearLeds => exact ⟨v, .clearLeds⟩
  | getLed valid => exact ⟨v, .getLed valid⟩
  | getLedInvalid invalid => exact ⟨v, .getLedInvalid invalid⟩
  | encBit => exact ⟨v, .encBit⟩
  | updateUninitialized | updateNotReady | updateTransmits => exact absurd rfl notUpdate

/-- Settles O24: each command's branches name the writers, and only the branches of `update` ask for INITIALIZED. -/
theorem onlyInitAndDeinitWriteInitialized : Obligations.OnlyInitAndDeinitWriteInitialized := by
  refine ⟨fun s t h ready => ?sets, fun s t h notReady => ?keeps, fun s t h => ?clears,
    fun i s t h notInit notDeinit => (Completes.of_exec h).initialized_eq notInit notDeinit,
    fun s uninit => (Completes.updateUninitialized uninit).exec_eq, fun i s t v notUpdate h => ?unread⟩
  case sets =>
    cases Completes.of_exec h with
    | initReady => rfl
    | initNotReady notReady => simp [ready] at notReady
  case keeps =>
    cases Completes.of_exec h with
    | initReady ready => simp [notReady] at ready
    | initNotReady => rfl
  case clears => cases Completes.of_exec h with | deinit => rfl
  case unread =>
    obtain ⟨w, h'⟩ := (Completes.of_exec h).setInitialized notUpdate v
    exact ⟨_, h'.exec_eq, rfl⟩

/-! ## TX_LOG -/

theorem writeResult_emitted_prefix {a : WriteAnswer} {p : List Byte} {status : TxStatus} {emitted : List Byte}
    (h : writeResult a p = some (status, emitted)) : emitted <+: p := by
  obtain ⟨-, rfl⟩ | ⟨_, -, -, pre⟩ := writeResult_cases h
  · exact List.prefix_rfl
  · exact pre

/-- The command wrote nothing to the transport and nothing to TX_LOG, and would have done the same under any log. -/
def LeavesTxLog (i : Instr) (s t : State) : Prop :=
  t.txLog = s.txLog ∧ t.transport.writeCalls = s.transport.writeCalls ∧
    ∀ log : List TxEvent, Completes i { s with txLog := log } { t with txLog := log }

/-- The command is an `update` that made one write and appended its event, and would have done the same under any log. -/
def AppendsTxLog (i : Instr) (s t : State) (e : TxEvent) : Prop :=
  i = .update ∧ t.txLog = s.txLog ++ [e] ∧ t.transport.writeCalls = s.transport.writeCalls + 1 ∧
    e.emitted <+: e.payload ∧
    ∀ log : List TxEvent, Completes i { s with txLog := log } { t with txLog := log ++ [e] }

/-- No branch's condition mentions TX_LOG, and only the branch that transmits extends it. -/
theorem Completes.leaves_or_appends_txLog {i : Instr} {s t : State} (h : Completes i s t) :
    LeavesTxLog i s t ∨ ∃ e, AppendsTxLog i s t e := by
  cases h with
  | initReady ready => exact .inl ⟨rfl, rfl, fun _ => .initReady ready⟩
  | initNotReady notReady => exact .inl ⟨rfl, rfl, fun _ => .initNotReady notReady⟩
  | deinit => exact .inl ⟨rfl, rfl, fun _ => .deinit⟩
  | setLed valid => exact .inl ⟨rfl, rfl, fun _ => .setLed valid⟩
  | setLedInvalid invalid => exact .inl ⟨rfl, rfl, fun _ => .setLedInvalid invalid⟩
  | setAllLeds => exact .inl ⟨rfl, rfl, fun _ => .setAllLeds⟩
  | clearLeds => exact .inl ⟨rfl, rfl, fun _ => .clearLeds⟩
  | getLed valid => exact .inl ⟨rfl, rfl, fun _ => .getLed valid⟩
  | getLedInvalid invalid => exact .inl ⟨rfl, rfl, fun _ => .getLedInvalid invalid⟩
  | encBit => exact .inl ⟨rfl, rfl, fun _ => .encBit⟩
  | updateUninitialized uninit => exact .inl ⟨rfl, rfl, fun _ => .updateUninitialized uninit⟩
  | updateNotReady init notReady => exact .inl ⟨rfl, rfl, fun _ => .updateNotReady init notReady⟩
  | updateTransmits init ready written =>
    exact .inr ⟨_, rfl, rfl, rfl, writeResult_emitted_prefix written, fun _ => .updateTransmits init ready written⟩

/-- Settles O25: the events appended are none, or the one of an `update` that transmitted. -/
theorem txLogIsAppendOnlyAndUnread : Obligations.TxLogIsAppendOnlyAndUnread := by
  intro i s t h
  obtain ⟨log_eq, calls_eq, unread⟩ | ⟨e, isUpdate, log_eq, calls_eq, emitted, unread⟩ :=
    (Completes.of_exec h).leaves_or_appends_txLog
  · refine ⟨[], by simpa using log_eq, calls_eq, by simp, by simp, by simp, fun log => ?_⟩
    simpa using (unread log).exec_eq
  · refine ⟨[e], log_eq, calls_eq, by simp, fun _ => isUpdate, by simpa using emitted, fun log => ?_⟩
    exact (unread log).exec_eq

end Sys2Proof.Machine
end

section
/-! SUPPORT. The index bound of the LED store's commands (20_memory.md R45). -/

namespace Sys2Proof.Machine

/-- Settles O22: `set_led` and `get_led` both branch on the index against N; the valid branches answer OK, and the invalid
ones answer InvalidIndex and write nothing else. -/
theorem outOfRangeIndexIsRejected : Obligations.OutOfRangeIndexIsRejected := by
  intro idx r g b s
  obtain valid | invalid : idx.toNat < 10 ∨ 10 ≤ idx.toNat := Nat.lt_or_ge _ _
  · exact ⟨_, _, _, _, (Completes.setLed valid).exec_eq, rfl, (Completes.getLed valid).exec_eq, rfl,
      fun _ => ⟨rfl, rfl⟩, fun invalid => absurd valid (Nat.not_lt.mpr invalid)⟩
  · exact ⟨_, _, _, _, (Completes.setLedInvalid invalid).exec_eq, rfl, (Completes.getLedInvalid invalid).exec_eq, rfl,
      fun valid => absurd valid (Nat.not_lt.mpr invalid), fun _ => ⟨rfl, rfl, rfl, rfl⟩⟩

end Sys2Proof.Machine
end

section
/-! SUPPORT. The opcode map by mnemonic (30_encoding.md R64, R65): each row's opcode, the fields it requires zero and its
command, and the decoder said once in these terms. `opcodeMap_eq_rows` ties the rows to the model's map. -/

namespace Sys2Proof

/-- The opcode of the mnemonic's row (R64). -/
def Mnemonic.opcode : Mnemonic → Byte
  | .init => 0x01#8
  | .deinit => 0x02#8
  | .setLed => 0x10#8
  | .setAllLeds => 0x11#8
  | .clearLeds => 0x12#8
  | .getLed => 0x13#8
  | .encBit => 0x20#8
  | .update => 0x30#8

/-- The mask of the mnemonic's row, by fields: it keeps the opcode and every bit the row requires zero (R64). -/
def Mnemonic.mask : Mnemonic → CmdWord
  | .init | .deinit | .clearLeds | .update =>
    assembleWord (.allOnes 8) (.allOnes 16) (.allOnes 8) (.allOnes 8) (.allOnes 8)
  | .setLed => assembleWord (.allOnes 8) 0 0 0 0
  | .setAllLeds => assembleWord (.allOnes 8) (.allOnes 16) 0 0 0
  | .getLed => assembleWord (.allOnes 8) 0 (.allOnes 8) (.allOnes 8) (.allOnes 8)
  | .encBit => assembleWord (.allOnes 8) (.allOnes 16) (.allOnes 8) (.allOnes 8) 0xFE#8

/-- The `match` of the mnemonic's row: its opcode, every other field zero (R64). -/
def Mnemonic.pattern (m : Mnemonic) : CmdWord := assembleWord m.opcode 0 0 0 0

/-- The model's opcode map is the rows of all mnemonics. -/
theorem opcodeMap_eq_rows : opcodeMap = Machine.mnemonics.map fun m => ⟨m, m.pattern, m.mask⟩ := by decide

theorem mem_mnemonics (m : Mnemonic) : m ∈ Machine.mnemonics := by cases m <;> decide

theorem row_mem_opcodeMap (m : Mnemonic) : ⟨m, m.pattern, m.mask⟩ ∈ opcodeMap := by
  rw [opcodeMap_eq_rows]
  exact List.mem_map_of_mem (mem_mnemonics m)

/-- The fields of the word that the mnemonic's row requires zero are zero (R64). -/
def Mnemonic.requiredZero (w : CmdWord) : Mnemonic → Bool
  | .init | .deinit | .clearLeds | .update => operandsZero w
  | .setLed => true
  | .setAllLeds => idxField w == 0
  | .getLed => channelsZero w
  | .encBit => idxField w == 0 && redField w == 0 && greenField w == 0 && blueHighField w == 0

/-- The mnemonic's command with its operands taken from the word (R61, R62). -/
def Mnemonic.command (w : CmdWord) : Mnemonic → Instr
  | .init => .init
  | .deinit => .deinit
  | .setLed => .setLed (idxField w) (redField w) (greenField w) (blueField w)
  | .setAllLeds => .setAllLeds (redField w) (greenField w) (blueField w)
  | .clearLeds => .clearLeds
  | .getLed => .getLed (idxField w)
  | .encBit => .encBit (bitField w)
  | .update => .update

@[simp] theorem Mnemonic.command_mnemonic (w : CmdWord) (m : Mnemonic) : (m.command w).mnemonic = m := by
  cases m <;> rfl

/-! ## Selecting a row -/

/-- The mask of `enc_bit` keeps `cmd[7:1]` of the blue field. -/
theorem blueField_and_eq_zero_iff (w : CmdWord) : blueField w &&& 0xFE#8 = 0#8 ↔ blueHighField w = 0#7 := by
  rw [blueHighField_eq]
  generalize blueField w = b
  revert b
  decide

/-- A word selects a row when it has the row's opcode and the fields the row requires zero are zero. -/
theorem selects_row_iff (w : CmdWord) (m : Mnemonic) :
    w &&& m.mask = m.pattern ↔ opcField w = m.opcode ∧ m.requiredZero w = true := by
  cases m <;>
    simp only [Mnemonic.mask, Mnemonic.pattern, Mnemonic.requiredZero, operandsZero, channelsZero, and_eq_iff_fields,
      BitVec.ofNat_eq_ofNat, BitVec.and_allOnes, BitVec.and_zero, blueField_and_eq_zero_iff, Bool.and_eq_true, beq_iff_eq,
      and_assoc, and_true, true_and]

/-! ## The decoder, row by row -/

theorem decode_of_opcode {w : CmdWord} {m : Mnemonic} (h : opcField w = m.opcode) :
    decode w = withZeroFields w (m.requiredZero w) (m.command w) := by
  cases m <;> simp [decode, h, Mnemonic.opcode, Mnemonic.requiredZero, Mnemonic.command, withZeroFields]

theorem decode_of_reserved {w : CmdWord} (h : ∀ m : Mnemonic, opcField w ≠ m.opcode) :
    decode w = .error (.reservedOpcode (opcField w)) :=
  (if_neg (h .init)).trans <| (if_neg (h .deinit)).trans <| (if_neg (h .setLed)).trans <|
  (if_neg (h .setAllLeds)).trans <| (if_neg (h .clearLeds)).trans <| (if_neg (h .getLed)).trans <|
  (if_neg (h .encBit)).trans (if_neg (h .update))

theorem withZeroFields_eq_ok_iff {w : CmdWord} {zero : Bool} {i j : Instr} :
    withZeroFields w zero i = .ok j ↔ zero = true ∧ j = i := by
  cases zero <;> simp [withZeroFields, eq_comm]

/-- Everything a successful decode says: the word selects the command's row, and the operands are the word's fields. -/
theorem decode_eq_ok_iff {w : CmdWord} {i : Instr} :
    decode w = .ok i ↔ w &&& i.mnemonic.mask = i.mnemonic.pattern ∧ i = i.mnemonic.command w := by
  rw [selects_row_iff]
  constructor
  · intro h
    obtain ⟨m, opcode⟩ : ∃ m : Mnemonic, opcField w = m.opcode := by
      by_contra reserved
      rw [decode_of_reserved (not_exists.mp reserved)] at h
      cases h
    rw [decode_of_opcode opcode, withZeroFields_eq_ok_iff] at h
    obtain ⟨zero, rfl⟩ := h
    rw [Mnemonic.command_mnemonic]
    exact ⟨⟨opcode, zero⟩, rfl⟩
  · rintro ⟨⟨opcode, zero⟩, operands⟩
    rw [decode_of_opcode opcode]
    exact withZeroFields_eq_ok_iff.mpr ⟨zero, operands⟩

theorem decode_mnemonic_iff (w : CmdWord) (m : Mnemonic) :
    (∃ i, decode w = .ok i ∧ i.mnemonic = m) ↔ w &&& m.mask = m.pattern := by
  constructor
  · rintro ⟨i, decoded, rfl⟩
    exact (decode_eq_ok_iff.mp decoded).1
  · intro selected
    have mnemonic_eq := Mnemonic.command_mnemonic w m
    exact ⟨m.command w, decode_eq_ok_iff.mpr (by rw [mnemonic_eq]; exact ⟨selected, rfl⟩), mnemonic_eq⟩

/-- Settles O40. -/
theorem decodeFollowsTheOpcodeMap : Obligations.DecodeFollowsTheOpcodeMap := by
  intro w m
  rw [decode_mnemonic_iff]
  cases m <;> rfl

end Sys2Proof

namespace Sys2Proof.Machine

/-! ## Words that decode to no command -/

/-- A word that decodes to no command ends illegal, whatever the reason for its rejection. -/
theorem endsIllegal_of_decode_ne_ok {w : CmdWord} (h : ∀ i, decode w ≠ .ok i) : EndsIllegal w := by
  intro s
  unfold runWord
  split
  next i decoded => exact absurd decoded (h i)
  next e _ => exact execIllegal_eq e s

theorem endsIllegal_of_reserved {w : CmdWord} (h : ∀ m : Mnemonic, opcField w ≠ m.opcode) : EndsIllegal w :=
  endsIllegal_of_decode_ne_ok fun i decoded => by
    obtain ⟨opcode, -⟩ := (selects_row_iff w _).mp (decode_eq_ok_iff.mp decoded).1
    exact h i.mnemonic opcode

theorem endsIllegal_of_selects_no_row {w : CmdWord} (h : ∀ m : Mnemonic, w &&& m.mask ≠ m.pattern) : EndsIllegal w :=
  endsIllegal_of_decode_ne_ok fun i decoded => h i.mnemonic (decode_eq_ok_iff.mp decoded).1

/-- Settles O41: no opcode of a row lies in a reserved range, and a word that decodes to a command selects its row. -/
theorem reservedAndIllegalWordsEndIllegal : Obligations.ReservedAndIllegalWordsEndIllegal := by
  refine ⟨fun w ranges => endsIllegal_of_reserved fun m opcode => ?listed,
    fun w noRow => endsIllegal_of_selects_no_row fun m => noRow _ (row_mem_opcodeMap m)⟩
  case listed =>
    rw [show w.extractLsb' 40 8 = m.opcode from opcode] at ranges
    cases m <;> revert ranges <;> decide

end Sys2Proof.Machine
end

section
/-! SUPPORT. Three channel bytes packed into 24 bits: the word of a frame group and the data of `get_led`
(20_memory.md R43 (a), 30_encoding.md R66). -/

namespace Sys2Proof.Machine

/-- Shifting bytes into place and joining them is appending them. -/
theorem shiftLeft_or_eq_append (a b c : Byte) :
    (a.setWidth 24 <<< 16) ||| (b.setWidth 24 <<< 8) ||| c.setWidth 24 = a ++ b ++ c := by
  apply BitVec.eq_of_getLsbD_eq
  intro i hi
  simp only [BitVec.getLsbD_or, BitVec.getLsbD_shiftLeft, BitVec.getLsbD_setWidth, BitVec.getLsbD_append]
  interval_cases i <;> simp

theorem Led.grbWord_eq (c : Led) : c.grbWord = c.g ++ c.r ++ c.b := shiftLeft_or_eq_append c.g c.r c.b

theorem Led.data_eq (c : Led) : c.data = c.r ++ c.g ++ c.b := shiftLeft_or_eq_append c.r c.g c.b

theorem Led.data_red (c : Led) : c.data.extractLsb' 16 8 = c.r := by
  rw [Led.data_eq]
  exact (BitVec.extractLsb'_append_eq_of_le (by decide)).trans BitVec.extractLsb'_append_eq_left

theorem Led.data_green (c : Led) : c.data.extractLsb' 8 8 = c.g := by
  rw [Led.data_eq]
  exact (BitVec.extractLsb'_append_eq_of_le (by decide)).trans BitVec.extractLsb'_append_eq_right

theorem Led.data_blue (c : Led) : c.data.extractLsb' 0 8 = c.b := by
  rw [Led.data_eq]
  exact BitVec.extractLsb'_append_eq_right

theorem Led.grbWord_green (c : Led) {k : Nat} (h : k < 8) : c.grbWord.getLsbD (16 + k) = c.g.getLsbD k := by
  have : 16 + k - 8 - 8 = k := by omega
  rw [Led.grbWord_eq, BitVec.getLsbD_append, if_neg (by omega), BitVec.getLsbD_append, if_neg (by omega), this]

theorem Led.grbWord_red (c : Led) {k : Nat} (h : k < 8) : c.grbWord.getLsbD (8 + k) = c.r.getLsbD k := by
  rw [Led.grbWord_eq, BitVec.getLsbD_append, if_neg (by omega), BitVec.getLsbD_append, if_pos (by omega),
    Nat.add_sub_cancel_left]

theorem Led.grbWord_blue (c : Led) {k : Nat} (h : k < 8) : c.grbWord.getLsbD k = c.b.getLsbD k := by
  rw [Led.grbWord_eq, BitVec.getLsbD_append, if_pos h]

end Sys2Proof.Machine
end

section
/-! SUPPORT. The response record of every command word (30_encoding.md R66). -/

namespace Sys2Proof.Machine

theorem writeResult_eq_fail {a : WriteAnswer} {p emitted : List Byte} {code : BitVec 32}
    (h : writeResult a p = some (.fail code, emitted)) : code ≠ 0 ∧ ∃ n, a = .returned code n := by
  cases a with
  | neverReturns => simp [writeResult] at h
  | returned status n =>
    by_cases success : status = 0
    · rw [writeResult, if_pos success] at h
      cases h
    · rw [writeResult, if_neg success] at h
      cases h
      exact ⟨success, n, rfl⟩

theorem ErrorKind.txcode_eq_zero {e : ErrorKind} (h : e.code ≠ 0x03#8) : e.txcode = 0 := by
  cases e with
  | transportWriteFailed => exact absurd rfl h
  | deviceNotReady | invalidIndex | illegalCommand => rfl

theorem ErrorKind.eq_transportWriteFailed {e : ErrorKind} (h : e.code = 0x03#8) :
    e = .transportWriteFailed e.txcode := by
  cases e with
  | transportWriteFailed => rfl
  | deviceNotReady | invalidIndex | illegalCommand => exact absurd h (by simp [ErrorKind.code])

/-- The command from `s` ended in `t` with an error; if it is TransportWriteFailed, its code is the nonzero status that
the transport's write returned. -/
def EndsInError (s t : State) : Prop :=
  ∃ e : ErrorKind, t.response = some e.response ∧
    ∀ code, e = .transportWriteFailed code → code ≠ 0 ∧ ∃ n, s.writeAnswer = .returned code n

/-- Every command returns OK, with DATA other than 0 from `get_led` and `enc_bit` alone, or an error. -/
theorem Completes.returns_ok_or_error {i : Instr} {s t : State} (h : Completes i s t) :
    (∃ data, t.response = some (okResponse data) ∧ (data = 0 ∨ (∃ idx, i = .getLed idx) ∨ ∃ bit, i = .encBit bit)) ∨
    EndsInError s t := by
  cases h with
  | initReady | deinit | setLed | setAllLeds | clearLeds => exact .inl ⟨0, rfl, .inl rfl⟩
  | getLed => exact .inl ⟨_, rfl, .inr (.inl ⟨_, rfl⟩)⟩
  | encBit => exact .inl ⟨_, rfl, .inr (.inr ⟨_, rfl⟩)⟩
  | initNotReady | updateUninitialized | updateNotReady => exact .inr ⟨.deviceNotReady, rfl, nofun⟩
  | setLedInvalid | getLedInvalid => exact .inr ⟨.invalidIndex _, rfl, nofun⟩
  | @updateTransmits _ status _ _ _ written =>
    cases status with
    | ok => exact .inl ⟨0, rfl, .inl rfl⟩
    | fail code =>
      refine .inr ⟨.transportWriteFailed code, rfl, ?_⟩
      rintro _ ⟨⟩
      exact writeResult_eq_fail written

/-- `Completes.returns_ok_or_error` for a word, legal or not. -/
theorem runWord_returns_ok_or_error {w : CmdWord} {s t : State} (h : runWord w s = .next t) :
    (∃ data, t.response = some (okResponse data) ∧
      (data = 0 ∨ (∃ idx, decode w = .ok (.getLed idx)) ∨ ∃ bit, decode w = .ok (.encBit bit))) ∨
    EndsInError s t := by
  obtain ⟨i, decoded, executed⟩ | ⟨_, _, rfl⟩ := runWord_next h
  · simpa only [decoded, Except.ok.injEq] using (Completes.of_exec executed).returns_ok_or_error
  · exact .inr ⟨.illegalCommand, rfl, nofun⟩

/-- Settles O29. -/
theorem everyCommandReturnsOneResponseRecord : Obligations.EveryCommandReturnsOneResponseRecord := by
  refine ⟨fun w s t h => ?record, fun idx s valid => ?getLed, fun bit s => ⟨_, _, Completes.encBit.exec_eq, rfl, rfl⟩⟩
  case record =>
    obtain ⟨data, response, source⟩ | ⟨e, response, failed⟩ := runWord_returns_ok_or_error h
    · refine ⟨_, response, fun _ => rfl, fun failed => absurd failed (by decide : (0x00#8 : Byte) ≠ 0x03#8),
        fun noRecord noSymbol => ?_⟩
      obtain zero | ⟨idx, isGetLed⟩ | ⟨bit, isEncBit⟩ := source
      · exact zero
      · exact absurd rfl (noRecord idx isGetLed)
      · exact absurd isEncBit (noSymbol bit)
    · refine ⟨_, response, ErrorKind.txcode_eq_zero, fun isFailure => ?_, fun _ _ => rfl⟩
      exact (failed _ (ErrorKind.eq_transportWriteFailed isFailure)).2
  case getLed =>
    exact ⟨_, _, (Completes.getLed valid).exec_eq, rfl, Led.data_red _, Led.data_green _, Led.data_blue _⟩

end Sys2Proof.Machine
end

section
/-! SUPPORT. The frame, byte by byte (30_encoding.md R71, 41_frame_encoder.md R90, R91). -/

namespace Sys2Proof.Machine

/-- In a concatenation of pieces of `n` elements, element `n * i + k` is element `k` of piece `i`. -/
theorem getElem?_flatMap_of_length {α β : Type} {f : α → List β} {n : Nat} (length_eq : ∀ a, (f a).length = n)
    (l : List α) (i : Nat) {k : Nat} (hk : k < n) : (l.flatMap f)[n * i + k]? = l[i]?.bind fun a => (f a)[k]? := by
  induction l generalizing i with
  | nil => simp
  | cons a l ih =>
    rw [List.flatMap_cons]
    cases i with
    | zero => simp [List.getElem?_append_left, length_eq, hk]
    | succ i =>
      have past : n * (i + 1) + k = (f a).length + (n * i + k) := by rw [length_eq, Nat.mul_succ]; omega
      rw [past, List.getElem?_append_right (Nat.le_add_right _ _), Nat.add_sub_cancel_left, ih,
        List.getElem?_cons_succ]

@[simp] theorem Led.length_symbols (c : Led) : c.symbols.length = 24 := by simp [Led.symbols, Config.symsPerLed]

theorem Led.getElem?_symbols (c : Led) {k : Nat} (h : k < 24) :
    c.symbols[k]? = some (encBit (c.grbWord.getLsbD (23 - k))) := by
  simp [Led.symbols, Config.symsPerLed, List.getElem?_range h]

section Frame

variable (strip : Vector Led 10)

theorem length_symbols_strip : (strip.toList.flatMap Led.symbols).length = 24 * 10 := by
  simp [List.length_flatMap]

theorem length_frameEncode : (frameEncode strip).length = 24 * 10 + 64 := by
  rw [frameEncode, List.length_append, length_symbols_strip]; rfl

/-- R90: byte `24 * i + k` is the symbol of bit `23 - k` of the word of record `i`. -/
theorem getElem?_frameEncode_symbol {i k : Nat} (hi : i < 10) (hk : k < 24) :
    (frameEncode strip)[24 * i + k]? = some (encBit (strip[i].grbWord.getLsbD (23 - k))) := by
  have inside : 24 * i + k < (strip.toList.flatMap Led.symbols).length := by rw [length_symbols_strip]; omega
  rw [frameEncode, List.getElem?_append_left inside, getElem?_flatMap_of_length Led.length_symbols _ _ hk]
  simp [hi, Led.getElem?_symbols _ hk]

theorem getElem?_frameEncode_gap {j : Nat} (h : j < 64) : (frameEncode strip)[24 * 10 + j]? = some 0x00#8 := by
  rw [frameEncode, ← length_symbols_strip strip, List.getElem?_append_right (Nat.le_add_right _ _),
    Nat.add_sub_cancel_left]
  exact List.getElem?_replicate_of_lt h

end Frame

/-- Settles O15: the word of a record is G, R, B, and its bits are sent from 23 down, so byte `8 * c + k` of a group is bit
`7 - k` of channel `c`. -/
theorem frameIsSymbolsInGrbOrderThenGap : Obligations.FrameIsSymbolsInGrbOrderThenGap := by
  intro strip
  refine ⟨length_frameEncode strip, fun i k hi hk => ?green, fun i k hi hk => ?red, fun i k hi hk => ?blue,
    fun j hj => getElem?_frameEncode_gap strip hj⟩
  case green =>
    rw [getElem?_frameEncode_symbol strip hi (by omega), show 23 - k = 16 + (7 - k) by omega,
      Led.grbWord_green _ (by omega)]
    rfl
  case red =>
    rw [Nat.add_assoc, getElem?_frameEncode_symbol strip hi (by omega), show 23 - (8 + k) = 8 + (7 - k) by omega,
      Led.grbWord_red _ (by omega)]
    rfl
  case blue =>
    rw [Nat.add_assoc, getElem?_frameEncode_symbol strip hi (by omega), show 23 - (16 + k) = 7 - k by omega,
      Led.grbWord_blue _ (by omega)]
    rfl

end Sys2Proof.Machine
end

section
/-! SUPPORT. A word with a listed opcode: it is its row's command, or it ends illegal (30_encoding.md R64, R65). -/

namespace Sys2Proof

/-- A word that selects the mnemonic's row decodes to its command. -/
theorem decode_of_selects {w : CmdWord} {m : Mnemonic} (selected : w &&& m.mask = m.pattern) :
    decode w = .ok (m.command w) :=
  decode_eq_ok_iff.mpr (by rw [Mnemonic.command_mnemonic]; exact ⟨selected, rfl⟩)

end Sys2Proof

namespace Sys2Proof.Machine

/-- The opcode leaves one row to select, so a word that misses this row decodes to no command. -/
theorem endsIllegal_of_opcode {w : CmdWord} {m : Mnemonic} (opcode : opcField w = m.opcode)
    (notSelected : w &&& m.mask ≠ m.pattern) : EndsIllegal w :=
  endsIllegal_of_decode_ne_ok fun i decoded => by
    rw [decode_of_opcode opcode, withZeroFields_eq_ok_iff] at decoded
    obtain ⟨zero, -⟩ := decoded
    exact notSelected ((selects_row_iff w m).mpr ⟨opcode, zero⟩)

end Sys2Proof.Machine
end

section
/-! SUPPORT. The Bit Encoder and `enc_bit` (40_bit_encoder.md R80, R81). -/

namespace Sys2Proof.Machine

@[simp] theorem encBit_true : encBit true = 0xFC#8 := rfl

@[simp] theorem encBit_false : encBit false = 0xC0#8 := rfl

/-- Settles O13. -/
theorem encBitMapsEachBitToItsSymbol : Obligations.EncBitMapsEachBitToItsSymbol := ⟨encBit_true, encBit_false⟩

theorem exec_encBit_one (s : State) : exec (.encBit 1#1) s = .next (s.respond (okResponse 0x0000FC#24)) :=
  Completes.encBit.exec_eq

theorem exec_encBit_zero (s : State) : exec (.encBit 0#1) s = .next (s.respond (okResponse 0x0000C0#24)) :=
  Completes.encBit.exec_eq

/-- Settles O11: the row's mask and pattern decide which words with OPC 0x20 are `enc_bit`, and its one branch answers the
symbol. -/
theorem encBitReturnsTheSymbol : Obligations.EncBitReturnsTheSymbol :=
  ⟨fun _ selected => decode_of_selects (m := .encBit) selected,
    fun _ opcode notSelected => endsIllegal_of_opcode (m := .encBit) opcode notSelected,
    exec_encBit_one, exec_encBit_zero⟩

end Sys2Proof.Machine
end

section
/-! The frame as the spec writes it: bits of the word G ++ R ++ B, and the length L (41_frame_encoder.md R90, R91). -/

namespace Sys2Proof.Machine

theorem length_frameEncode_eq_bufLen (strip : Vector Led 10) : (frameEncode strip).length = Config.bufLen :=
  length_frameEncode strip

/-- Settles O17: ten groups of 24 symbols and a gap of 64 bytes. -/
theorem frameLengthIsL : Obligations.FrameLengthIsL := fun strip =>
  ⟨length_frameEncode strip, length_frameEncode_eq_bufLen strip⟩

/-- Settles O16: byte `24 * i + k` carries bit `23 - k` of the record's word, and that word is the concatenation G, R, B. -/
theorem frameByteIsSymbolOfGrbWordBit : Obligations.FrameByteIsSymbolOfGrbWordBit := by
  intro strip
  refine ⟨length_frameEncode_eq_bufLen strip, fun i k hi hk => ?symbol, fun j hj => getElem?_frameEncode_gap strip hj⟩
  case symbol => rw [← Led.grbWord_eq, getElem?_frameEncode_symbol strip hi hk]

end Sys2Proof.Machine
end

section
/-! SUPPORT. The LED State Store commands (42_led_state_store.md R100, R103, R105, R107). -/

namespace Sys2Proof.Machine

/-! ## Writing the records -/

/-- Settles O6: the row fixes the opcode alone, and the command's two branches are the two sides of the index bound. -/
theorem setLedOverwritesOneRecord : Obligations.SetLedOverwritesOneRecord :=
  ⟨fun _ selected => decode_of_selects (m := .setLed) selected,
    fun _ _ _ _ _ valid => (Completes.setLed valid).exec_eq,
    fun _ _ _ _ _ invalid => (Completes.setLedInvalid invalid).exec_eq⟩

theorem State.getElem_fillStrip_strip (s : State) (c : Led) {i : Nat} (h : i < 10) : (s.fillStrip c).strip[i] = c :=
  Vector.getElem_replicate h

/-- Settles O7: the row's mask decides which words with OPC 0x11 are `set_all_leds`, and its one branch fills STRIP. -/
theorem setAllLedsOverwritesEveryRecord : Obligations.SetAllLedsOverwritesEveryRecord :=
  ⟨fun _ selected => decode_of_selects (m := .setAllLeds) selected,
    fun _ opcode notSelected => endsIllegal_of_opcode (m := .setAllLeds) opcode notSelected,
    fun _ _ _ s => ⟨_, Completes.setAllLeds.exec_eq, fun _ h => s.getElem_fillStrip_strip _ h, rfl⟩⟩

/-- Settles O8: as for `set_all_leds`, with every operand field required zero. -/
theorem clearLedsZeroesEveryRecord : Obligations.ClearLedsZeroesEveryRecord :=
  ⟨fun _ selected => decode_of_selects (m := .clearLeds) selected,
    fun _ opcode notSelected => endsIllegal_of_opcode (m := .clearLeds) opcode notSelected,
    fun s => ⟨_, Completes.clearLeds.exec_eq, fun _ h => s.getElem_fillStrip_strip _ h, rfl⟩⟩

/-! ## Reading a record -/

/-- A valid `get_led` answers the record's channels in the order R, G, B and writes nothing but the response. -/
theorem exec_getLed_of_valid {idx : BitVec 16} (s : State) (valid : idx.toNat < Config.stripLen) :
    exec (.getLed idx) s = .next (s.respond (okResponse
      ((s.led idx.toNat valid).r ++ (s.led idx.toNat valid).g ++ (s.led idx.toNat valid).b))) := by
  rw [← Led.data_eq]
  exact (Completes.getLed valid).exec_eq

/-- Settles O10: the row's mask decides which words with OPC 0x13 are `get_led`, and the command's two branches are the two
sides of the index bound. -/
theorem getLedReturnsTheRecord : Obligations.GetLedReturnsTheRecord :=
  ⟨fun _ selected => decode_of_selects (m := .getLed) selected,
    fun _ opcode notSelected => endsIllegal_of_opcode (m := .getLed) opcode notSelected,
    fun _ s valid => exec_getLed_of_valid s valid,
    fun _ _ invalid => (Completes.getLedInvalid invalid).exec_eq⟩

end Sys2Proof.Machine
end

section
/-! SUPPORT. The transport's answer to a write, and what reaches the line (43_transmit_driver.md R122, R130, R131). -/

namespace Sys2Proof.Machine

theorem writeResult_returned_zero (n : Nat) (p : List Byte) : writeResult (.returned 0 n) p = some (.ok, p) :=
  rfl

theorem writeResult_returned_code {code : BitVec 32} (failed : code ≠ 0) (n : Nat) (p : List Byte) :
    writeResult (.returned code n) p = some (.fail code, p.take n) := if_neg failed

/-- Settles O33: a failed write emits as many bytes as the transport counts, and any start of the payload is the
payload cut to its length. -/
theorem failedWritesEmitAnyPrefix : Obligations.FailedWritesEmitAnyPrefix := by
  refine ⟨writeResult_returned_zero, fun _ n p failed => ?isPrefix, fun _ p em failed pre => ?everyPrefix⟩
  case isPrefix => exact ⟨p.take n, List.take_prefix n p, writeResult_returned_code failed n p⟩
  case everyPrefix =>
    refine ⟨em.length, ?_⟩
    rw [writeResult_returned_code failed, ← List.prefix_iff_eq_take.mp pre]

end Sys2Proof.Machine
end

section
/-! SUPPORT. `init` and `deinit` (43_transmit_driver.md R120, R121, R125). -/

namespace Sys2Proof.Machine

/-! ## `init` -/

/-- Settles O3: the row's mask and pattern decide which words with OPC 0x01 are `init`, and the readiness draw decides
between the command's two branches. -/
theorem initQueriesConfiguresAndMarksInitialized : Obligations.InitQueriesConfiguresAndMarksInitialized :=
  ⟨fun _ selected => decode_of_selects (m := .init) selected,
    fun _ opcode notSelected => endsIllegal_of_opcode (m := .init) opcode notSelected,
    fun _ ready => (Completes.initReady ready).exec_eq,
    fun _ notReady => (Completes.initNotReady notReady).exec_eq⟩

/-- Settles O4: the record handed over is the hard-wired TXCFG. -/
theorem initHandsTheConfigurationRequest : Obligations.InitHandsTheConfigurationRequest :=
  fun _ ready => ⟨_, (Completes.initReady ready).exec_eq, rfl⟩

/-! ## `deinit`, and the commands after it -/

/-- A command that is no successful `init` leaves an uninitialised block uninitialised. -/
theorem Completes.stays_uninitialized {i : Instr} {s t : State} (h : Completes i s t)
    (noInit : i = .init → s.readyAnswer = false) (uninit : s.initialized = false) : t.initialized = false := by
  cases h with
  | initReady ready => simp [ready] at noInit
  | deinit => rfl
  | initNotReady | setLed | setLedInvalid | setAllLeds | clearLeds | getLed | getLedInvalid | encBit => exact uninit
  | updateUninitialized | updateNotReady | updateTransmits => exact uninit

/-- Everything a completed run of a nonempty list is: its first command completes, and the rest runs from there. -/
theorem execList_cons_next {i : Instr} {is : List Instr} {s u : State} (h : execList (i :: is) s = .next u) :
    ∃ t, exec i s = .next t ∧ execList is t = .next u := by
  rw [execList] at h
  split at h
  next t executed => exact ⟨t, executed, h⟩
  next => cases h
  next => cases h

theorem execList_stays_uninitialized {is : List Instr} {s u : State} (uninit : s.initialized = false)
    (noInit : NoInitSucceeds is s) (run : execList is s = .next u) : u.initialized = false := by
  induction is generalizing s with
  | nil => cases run; exact uninit
  | cons i is ih =>
    obtain ⟨t, executed, rest⟩ := execList_cons_next run
    obtain ⟨firstFails, restFails⟩ := noInit
    exact ih ((Completes.of_exec executed).stays_uninitialized firstFails uninit) (restFails t executed) rest

/-- Settles O5: `deinit` has one branch, and INITIALIZED stays false through the commands after it, so `update` takes the
branch of an uninitialised block. -/
theorem deinitOnlyClearsInitialized : Obligations.DeinitOnlyClearsInitialized := by
  refine ⟨fun _ selected => decode_of_selects (m := .deinit) selected,
    fun _ opcode notSelected => endsIllegal_of_opcode (m := .deinit) opcode notSelected,
    fun _ => Completes.deinit.exec_eq, fun s t u is cleared noInit run => ?afterwards⟩
  case afterwards =>
    have uninit : t.initialized = false := by cases Completes.of_exec cleared with | deinit => rfl
    exact (Completes.updateUninitialized (execList_stays_uninitialized uninit noInit run)).exec_eq

end Sys2Proof.Machine
end

section
/-! SUPPORT. `update` by what its write returns (43_transmit_driver.md R128, R130). -/

namespace Sys2Proof.Machine

/-- What `update` reads back from SYMBUF for the transport is the frame it has just stored there. -/
theorem payloadOf_eq_frameEncode (s : State) : payloadOf s = frameEncode s.strip := by
  have readBack := s.memRead_memWrite 0 (frameEncode s.strip)
  rwa [length_frameEncode_eq_bufLen] at readBack

/-- The state in which an `update` of `s` ends whose write had this status and put these bytes on the line. -/
def State.transmitted (s : State) (status : TxStatus) (emitted : List Byte) : State :=
  ((s.readyAsked.memWrite 0 (frameEncode s.strip)).writeAsked.appendTxLog
    ⟨frameEncode s.strip, status, emitted⟩).respond (statusResponse status)

theorem exec_update_of_written {s : State} {status : TxStatus} {emitted : List Byte} (init : s.initialized = true)
    (ready : s.readyAnswer = true)
    (written : writeResult s.writeAnswer (frameEncode s.strip) = some (status, emitted)) :
    exec .update s = .next (s.transmitted status emitted) := by
  rw [← payloadOf_eq_frameEncode] at written
  have executed := (Completes.updateTransmits init ready written).exec_eq
  rwa [payloadOf_eq_frameEncode] at executed

theorem exec_update_of_returned_zero {s : State} {n : Nat} (init : s.initialized = true) (ready : s.readyAnswer = true)
    (answer : s.writeAnswer = .returned 0 n) :
    exec .update s = .next (s.transmitted .ok (frameEncode s.strip)) :=
  exec_update_of_written init ready (answer ▸ writeResult_returned_zero n _)

theorem exec_update_of_returned_code {s : State} {code : BitVec 32} {n : Nat} (init : s.initialized = true)
    (ready : s.readyAnswer = true) (failed : code ≠ 0) (answer : s.writeAnswer = .returned code n) :
    exec .update s = .next (s.transmitted (.fail code) ((frameEncode s.strip).take n)) :=
  exec_update_of_written init ready (answer ▸ writeResult_returned_code failed n _)

/-- Settles O12: the row's mask and pattern decide which words with OPC 0x30 are `update`; INITIALIZED, the readiness draw
and the status of the write decide between its branches. -/
theorem updateEncodesAndTransmitsOnce : Obligations.UpdateEncodesAndTransmitsOnce :=
  ⟨fun _ selected => decode_of_selects (m := .update) selected,
    fun _ opcode notSelected => endsIllegal_of_opcode (m := .update) opcode notSelected,
    fun _ uninit => (Completes.updateUninitialized uninit).exec_eq,
    fun _ init notReady => (Completes.updateNotReady init notReady).exec_eq,
    fun _ _ init ready answer => exec_update_of_returned_zero init ready answer,
    fun _ _ _ init ready failed answer => exec_update_of_returned_code init ready failed answer⟩

/-- Settles O34: the code of a failed write goes into the event appended last and into the response. -/
theorem transportStatusIsPassedThrough : Obligations.TransportStatusIsPassedThrough :=
  fun _ _ _ init ready failed answer =>
    ⟨_, _, _, exec_update_of_returned_code init ready failed answer, rfl, rfl, List.getLast?_concat, rfl⟩

end Sys2Proof.Machine
end

section
/-! SUPPORT. The result codes, which commands return which, and the order of the checks (60_exceptions.md R151 to R153). -/

namespace Sys2Proof

/-- The results a legal word of the mnemonic can return (R152). -/
def Mnemonic.results : Mnemonic → List Byte
  | .init => [0x00#8, 0x01#8]
  | .setLed | .getLed => [0x00#8, 0x02#8]
  | .update => [0x00#8, 0x01#8, 0x03#8]
  | .deinit | .setAllLeds | .clearLeds | .encBit => [0x00#8]

theorem Mnemonic.not_invalidIndex_of_deviceNotReady {m : Mnemonic} (deviceNotReady : 0x01#8 ∈ m.results) :
    0x02#8 ∉ m.results := by
  cases m with
  | init | update | deinit | setAllLeds | clearLeds | encBit => decide
  | setLed | getLed => exact absurd deviceNotReady (by decide)

end Sys2Proof

namespace Sys2Proof.Machine

/-! ## The codes -/

theorem ErrorKind.code_toNat_le (e : ErrorKind) : e.code.toNat ≤ 4 := by
  cases e <;> simp [ErrorKind.code]

/-- Settles O27: a word's result is 0 for OK, or the code of an error kind. -/
theorem resultCodesAreTheFiveOfTheTable : Obligations.ResultCodesAreTheFiveOfTheTable := by
  refine ⟨rfl, rfl, fun _ => rfl, fun _ => rfl, rfl, fun w s t h => ?bounded⟩
  case bounded =>
    obtain ⟨_, response, -⟩ | ⟨e, response, -⟩ := runWord_returns_ok_or_error h
    · exact ⟨_, response, Nat.zero_le 4⟩
    · exact ⟨_, response, e.code_toNat_le⟩

/-! ## The results of each command -/

theorem Completes.result_mem {i : Instr} {s t : State} (h : Completes i s t) :
    ∃ x, t.response = some x ∧ x.result ∈ i.mnemonic.results := by
  cases h with
  | initReady | deinit | setLed | setAllLeds | clearLeds | getLed | encBit => exact ⟨_, rfl, .head _⟩
  | initNotReady | setLedInvalid | getLedInvalid | updateUninitialized | updateNotReady =>
    exact ⟨_, rfl, .tail _ (.head _)⟩
  | @updateTransmits _ status =>
    cases status with
    | ok => exact ⟨_, rfl, .head _⟩
    | fail => exact ⟨_, rfl, .tail _ (.tail _ (.head _))⟩

/-! ## Priority -/

/-- TransportWriteFailed comes from the one branch behind both readiness checks. -/
theorem Completes.of_transportWriteFailed {i : Instr} {s t : State} {x : Response} (h : Completes i s t)
    (response : t.response = some x) (failed : x.result = 0x03#8) :
    i = .update ∧ s.initialized = true ∧ s.readyAnswer = true := by
  cases h with
  | updateTransmits init ready => exact ⟨rfl, init, ready⟩
  | initReady | deinit | setLed | setAllLeds | clearLeds | getLed | encBit | initNotReady | setLedInvalid
  | getLedInvalid | updateUninitialized | updateNotReady => cases response; cases failed

/-- Settles O30: a word is decoded before its command runs, the branches of `update` are ordered by their checks, and
no row of R152's table lists both DeviceNotReady and InvalidIndex. -/
theorem errorsAreCheckedInPriorityOrder : Obligations.ErrorsAreCheckedInPriorityOrder := by
  refine ⟨fun w e s illegal => endsIllegal_of_decode_ne_ok (by simp [illegal]) s,
    fun s uninit => ⟨_, (Completes.updateUninitialized uninit).exec_eq, rfl, rfl⟩,
    fun s init notReady => ⟨_, (Completes.updateNotReady init notReady).exec_eq, rfl, rfl⟩,
    fun i s t code h response => (Completes.of_exec h).of_transportWriteFailed response rfl,
    fun i s t s' t' x x' h response h' response' notReady invalid => ?notBoth⟩
  case notBoth =>
    obtain ⟨_, hx, listed⟩ := (Completes.of_exec h).result_mem
    obtain ⟨_, hx', listed'⟩ := (Completes.of_exec h').result_mem
    cases response.symm.trans hx
    cases response'.symm.trans hx'
    rw [notReady] at listed
    rw [invalid] at listed'
    exact Mnemonic.not_invalidIndex_of_deviceNotReady listed listed'

end Sys2Proof.Machine
end

section
/-! SUPPORT. The boot sequence: what `update` needs before it, and what needs nothing (70_reset_and_hazards.md R172). -/

namespace Sys2Proof.Machine

theorem ne_init_and_ne_deinit_of_store {i : Instr}
    (store : i.mnemonic ∈ [.setLed, .setAllLeds, .clearLeds, .getLed]) : i ≠ .init ∧ i ≠ .deinit := by
  constructor
  · rintro rfl; exact absurd store (by decide)
  · rintro rfl; exact absurd store (by decide)

theorem execList_initialized_eq {is : List Instr} {s u : State} (neither : ∀ i ∈ is, i ≠ .init ∧ i ≠ .deinit)
    (run : execList is s = .next u) : u.initialized = s.initialized := by
  induction is generalizing s with
  | nil => cases run; rfl
  | cons i is ih =>
    obtain ⟨t, executed, rest⟩ := execList_cons_next run
    obtain ⟨⟨notInit, notDeinit⟩, restNeither⟩ := List.forall_mem_cons.mp neither
    exact (ih restNeither rest).trans ((Completes.of_exec executed).initialized_eq notInit notDeinit)

/-- Settles O35: INITIALIZED stays 0 through the commands before a successful `init` and 1 through the store commands after
one, which decides the branch `update` takes; no branch of the other commands asks for it. -/
theorem updateNeedsASuccessfulInit : Obligations.UpdateNeedsASuccessfulInit := by
  refine ⟨fun is s t uninit noInit run => ?before, fun is s t u n opened ready stores run readyAgain answer => ?after,
    fun idx r g b bit s _ valid i issued => ?without⟩
  case before => exact (Completes.updateUninitialized (execList_stays_uninitialized uninit noInit run)).exec_eq
  case after =>
    obtain ⟨initSets, -⟩ := onlyInitAndDeinitWriteInitialized
    have init : u.initialized = true :=
      (execList_initialized_eq (fun i mem => ne_init_and_ne_deinit_of_store (stores i mem)) run).trans
        (initSets s t opened ready)
    exact ⟨_, exec_update_of_returned_zero init readyAgain answer, rfl⟩
  case without =>
    simp only [List.mem_cons, List.not_mem_nil, or_false] at issued
    obtain rfl | rfl | rfl | rfl | rfl := issued
    · exact ⟨_, _, (Completes.setLed valid).exec_eq, rfl, rfl⟩
    · exact ⟨_, _, Completes.setAllLeds.exec_eq, rfl, rfl⟩
    · exact ⟨_, _, Completes.clearLeds.exec_eq, rfl, rfl⟩
    · exact ⟨_, _, (Completes.getLed valid).exec_eq, rfl, rfl⟩
    · exact ⟨_, _, Completes.encBit.exec_eq, rfl, rfl⟩

end Sys2Proof.Machine
end

section
/-! SUPPORT. Decoding and encoding are inverse to each other, and no word selects two rows (30_encoding.md sections 1, 2). -/

namespace Sys2Proof

/-! ## The word of a command -/

theorem mem_opcodeMap_iff {row : OpcodeRow} : row ∈ opcodeMap ↔ ∃ m : Mnemonic, row = ⟨m, m.pattern, m.mask⟩ := by
  constructor
  · intro mem
    rw [opcodeMap_eq_rows] at mem
    obtain ⟨m, -, rfl⟩ := List.mem_map.mp mem
    exact ⟨m, rfl⟩
  · rintro ⟨m, rfl⟩
    exact row_mem_opcodeMap m

theorem inRow (i : Instr) : Laws.InRow.Statement i := by
  cases i with
  | init => exact Laws.InRow.init
  | deinit => exact Laws.InRow.deinit
  | setLed idx r g b => exact Laws.InRow.setLed idx r g b
  | setAllLeds r g b => exact Laws.InRow.setAllLeds r g b
  | clearLeds => exact Laws.InRow.clearLeds
  | getLed idx => exact Laws.InRow.getLed idx
  | encBit bit => exact Laws.InRow.encBit bit
  | update => exact Laws.InRow.update

theorem encode_selects (i : Instr) : encode i &&& i.mnemonic.mask = i.mnemonic.pattern := by
  obtain ⟨row, mem, sameMnemonic, selected⟩ := inRow i
  obtain ⟨m, rfl⟩ := mem_opcodeMap_iff.mp mem
  rwa [← sameMnemonic]

/-- Each operand is read back from the field it was put in. -/
theorem command_encode (i : Instr) : i.mnemonic.command (encode i) = i := by
  cases i with
  | init | deinit | clearLeds | update => rfl
  | setLed | setAllLeds | getLed => simp [Instr.mnemonic, Mnemonic.command, encode]
  | encBit bit =>
    simp only [Instr.mnemonic, Mnemonic.command, encode, bitField_eq, blueField_assembleWord]
    revert bit
    decide

/-- Settles O43: a command's word selects its row, and the row's operands are the word's fields. -/
theorem decodeOfEncodeIsTheCommand : Obligations.DecodeOfEncodeIsTheCommand :=
  fun i => decode_eq_ok_iff.mpr ⟨encode_selects i, (command_encode i).symm⟩

/-- With `cmd[7:1]` zero, the blue field is `cmd[0]` alone. -/
theorem bitField_setWidth_eq_blueField {w : CmdWord} (zero : blueHighField w = 0) :
    (bitField w).setWidth 8 = blueField w := by
  rw [blueHighField_eq] at zero
  rw [bitField_eq]
  generalize blueField w = b at zero ⊢
  revert b
  decide

/-- The fields that a command does not carry are zero in a word of its row, and the others are its operands. -/
theorem encode_command_of_selects {w : CmdWord} {m : Mnemonic} (selected : w &&& m.mask = m.pattern) :
    encode (m.command w) = w := by
  obtain ⟨opcode, zero⟩ := (selects_row_iff w m).mp selected
  conv_rhs => rw [← assembleWord_fields w, opcode]
  cases m with
  | init | deinit | clearLeds | update | setLed | setAllLeds | getLed =>
    simp_all [Mnemonic.requiredZero, operandsZero, channelsZero, Mnemonic.command, Mnemonic.opcode, encode]
  | encBit =>
    simp only [Mnemonic.requiredZero, Bool.and_eq_true, beq_iff_eq] at zero
    obtain ⟨⟨⟨idx, red⟩, green⟩, blueHigh⟩ := zero
    simp only [Mnemonic.command, Mnemonic.opcode, encode, idx, red, green, bitField_setWidth_eq_blueField blueHigh]

/-- Settles O44. -/
theorem encodeOfDecodeIsTheWord : Obligations.EncodeOfDecodeIsTheWord := by
  intro w i decoded
  obtain ⟨selected, operands⟩ := decode_eq_ok_iff.mp decoded
  rw [operands]
  exact encode_command_of_selects selected

/-- Settles O45: eight of the words are those of their commands, and the last two have a reserved opcode and a nonzero
field. -/
theorem exampleWordsDecodeToTheirCommands : Obligations.ExampleWordsDecodeToTheirCommands :=
  ⟨decodeOfEncodeIsTheCommand .init, decodeOfEncodeIsTheCommand .deinit,
    decodeOfEncodeIsTheCommand (.setLed 3 0x12 0x34 0x56), decodeOfEncodeIsTheCommand (.setAllLeds 50 50 50),
    decodeOfEncodeIsTheCommand .clearLeds, decodeOfEncodeIsTheCommand (.getLed 9), decodeOfEncodeIsTheCommand (.encBit 1),
    decodeOfEncodeIsTheCommand .update, rfl, rfl⟩

/-! ## One row per word -/

theorem Mnemonic.eq_of_opcode_eq {m n : Mnemonic} (h : m.opcode = n.opcode) : m = n := by
  have distinct : ∀ m ∈ Machine.mnemonics, ∀ n ∈ Machine.mnemonics, m.opcode = n.opcode → m = n := by decide
  exact distinct m (mem_mnemonics m) n (mem_mnemonics n) h

/-- Settles O42: a word selects a row only with the row's opcode, and no two rows share one. -/
theorem everyWordSelectsAtMostOneRow : Obligations.EveryWordSelectsAtMostOneRow := by
  refine ⟨fun w x hx y hy selectsX selectsY => ?oneRow, fun w => ?total⟩
  case oneRow =>
    obtain ⟨m, rfl⟩ := mem_opcodeMap_iff.mp hx
    obtain ⟨n, rfl⟩ := mem_opcodeMap_iff.mp hy
    obtain ⟨opcodeM, -⟩ := (selects_row_iff w m).mp (beq_iff_eq.mp selectsX)
    obtain ⟨opcodeN, -⟩ := (selects_row_iff w n).mp (beq_iff_eq.mp selectsY)
    rw [Mnemonic.eq_of_opcode_eq (opcodeM.symm.trans opcodeN)]
  case total =>
    by_cases legal : ∃ i, decode w = .ok i
    · exact .inl legal
    · exact .inr (Machine.endsIllegal_of_decode_ne_ok (not_exists.mp legal))

end Sys2Proof
end

section
/-! SUPPORT. What the frame tells: data from gap, one strip from another (30_encoding.md section 5, 40_bit_encoder.md
section 1, 41_frame_encoder.md section 2). -/

namespace Sys2Proof.Machine

/-! ## The symbols -/

/-- A symbol is a run of high bits down to bit 2 for a one and to bit 6 for a zero, and low below. -/
theorem getLsbD_encBit (b : Bool) {i : Nat} (h : i < 8) :
    (encBit b).getLsbD i = decide ((if b then 2 else 6) ≤ i) := by
  cases b <;> interval_cases i <;> rfl

theorem encBit_injective {a b : Bool} (h : encBit a = encBit b) : a = b := by
  revert a b
  decide

/-- Settles O14: both symbols are one run of high bits, of different lengths and not empty. -/
theorem symbolsAreDistinctHighRunsAndNoGapByte : Obligations.SymbolsAreDistinctHighRunsAndNoGapByte := by
  refine ⟨fun _ _ => encBit_injective, rfl, rfl, fun b i j hi hj high low => ?above, by decide⟩
  case above =>
    rw [getLsbD_encBit b hi, decide_eq_true_eq] at high
    rw [getLsbD_encBit b hj, decide_eq_false_iff_not] at low
    omega

/-! ## Data bytes and gap bytes -/

theorem frameEncode_data_byte {strip : Vector Led 10} {k : Nat} {b : Byte} (byte : (frameEncode strip)[k]? = some b)
    (data : k < 24 * 10) : ∃ bit, b = encBit bit := by
  have symbol := getElem?_frameEncode_symbol strip (Nat.div_lt_of_lt_mul data) (Nat.mod_lt k (by decide))
  rw [Nat.div_add_mod, byte] at symbol
  exact ⟨_, Option.some.inj symbol⟩

theorem frameEncode_gap_byte {strip : Vector Led 10} {k : Nat} {b : Byte} (byte : (frameEncode strip)[k]? = some b)
    (gap : 24 * 10 ≤ k) : b = 0x00#8 := by
  obtain ⟨inside, -⟩ := List.getElem?_eq_some_iff.mp byte
  rw [length_frameEncode] at inside
  obtain ⟨j, rfl⟩ := Nat.exists_eq_add_of_le gap
  rw [getElem?_frameEncode_gap strip (by omega)] at byte
  exact (Option.some.inj byte).symm

/-- Settles O18. -/
theorem frameBytesTellDataFromGap : Obligations.FrameBytesTellDataFromGap := by
  refine fun strip k b byte => ⟨fun data => ?symbol, frameEncode_gap_byte byte⟩
  case symbol =>
    obtain ⟨bit, rfl⟩ := frameEncode_data_byte byte data
    cases bit with
    | true => exact .inl encBit_true
    | false => exact .inr encBit_false

/-! ## One strip per frame -/

/-- The record a GRB word stands for is the one it was made from. -/
theorem Led.ofGrbWord_grbWord (c : Led) : Led.ofGrbWord c.grbWord = c := by
  have red : c.grbWord.extractLsb' 8 8 = c.r := by
    rw [Led.grbWord_eq]
    exact (BitVec.extractLsb'_append_eq_of_le (by decide)).trans BitVec.extractLsb'_append_eq_right
  have green : c.grbWord.extractLsb' 16 8 = c.g := by
    rw [Led.grbWord_eq]
    exact (BitVec.extractLsb'_append_eq_of_le (by decide)).trans BitVec.extractLsb'_append_eq_left
  have blue : c.grbWord.extractLsb' 0 8 = c.b := by
    rw [Led.grbWord_eq]
    exact BitVec.extractLsb'_append_eq_right
  rw [Led.ofGrbWord, red, green, blue]

theorem Led.grbWord_injective {c d : Led} (h : c.grbWord = d.grbWord) : c = d := by
  rw [← c.ofGrbWord_grbWord, h, d.ofGrbWord_grbWord]

/-- Settles O19: byte `24 * i + k` gives bit `23 - k` of the word of record `i`, and the word gives the record. -/
theorem frameEncodeIsInjective : Obligations.FrameEncodeIsInjective := by
  intro a b sameFrame
  refine Vector.ext fun i hi => Led.grbWord_injective (BitVec.eq_of_getLsbD_eq fun j hj => encBit_injective ?_)
  have byteA := getElem?_frameEncode_symbol a hi (k := 23 - j) (by omega)
  have byteB := getElem?_frameEncode_symbol b hi (k := 23 - j) (by omega)
  rw [sameFrame, byteB, show 23 - (23 - j) = j by omega] at byteA
  exact (Option.some.inj byteA).symm

/-! ## Uniform strips -/

/-- A strip of equal records whose 24 symbols are equal gives a frame of one symbol and the gap. -/
theorem frameEncode_replicate {c : Led} {sym : Byte} (uniform : c.symbols = List.replicate 24 sym) :
    frameEncode (Vector.replicate 10 c) = List.replicate 240 sym ++ List.replicate 64 0x00#8 := by
  rw [frameEncode, Vector.toList_replicate, List.flatMap_replicate, uniform, List.flatten_replicate_replicate]
  rfl

theorem frameEncode_black :
    frameEncode (Vector.replicate 10 stripInit) = List.replicate 240 0xC0#8 ++ List.replicate 64 0x00#8 :=
  frameEncode_replicate (by decide)

/-- Settles O20. -/
theorem uniformStripsGiveUniformFrames : Obligations.UniformStripsGiveUniformFrames :=
  ⟨frameEncode_black, frameEncode_replicate (by decide)⟩

end Sys2Proof.Machine
end

section
/-! SUPPORT. The data line: levels, durations, and what the LED chain takes (43_transmit_driver.md section 5,
70_reset_and_hazards.md section 4). -/

namespace Sys2Proof.Machine

/-! ## Levels and durations -/

theorem bitPeriodNs_txcfg : bitPeriodNs Config.txcfg = 125 := rfl

@[simp] theorem length_byteLevels (cfg : TxConfig) (b : Byte) : (byteLevels cfg b).length = cfg.wordSize := by
  simp [byteLevels]

theorem getElem?_byteLevels_txcfg (b : Byte) {k : Nat} (h : k < 8) :
    (byteLevels Config.txcfg b)[k]? = some (if b.getLsbD (7 - k) then .high else .low) := by
  have inside : k < Config.txcfg.wordSize := h
  rw [byteLevels, List.getElem?_map, List.getElem?_range inside]
  rfl

theorem byteLevels_one :
    byteLevels Config.txcfg (encBit true) = List.replicate 6 .high ++ List.replicate 2 .low := rfl

theorem byteLevels_zero :
    byteLevels Config.txcfg (encBit false) = List.replicate 2 .high ++ List.replicate 6 .low := rfl

/-- Settles O55. -/
theorem symbolsAreOneHighRunThenLow : Obligations.SymbolsAreOneHighRunThenLow :=
  ⟨bitPeriodNs_txcfg, fun b _ h => getElem?_byteLevels_txcfg b h, byteLevels_one, byteLevels_zero⟩

/-- A byte is 8 bit periods of 125 ns. -/
theorem durationNs_txcfg (bytes : List Byte) : durationNs Config.txcfg bytes = 1000 * bytes.length := by
  have periods : (lineLevels Config.txcfg bytes).length = bytes.length * 8 := by
    simp [lineLevels, List.length_flatMap, Config.txcfg, Config.wordSize]
  rw [durationNs, periods, bitPeriodNs_txcfg]
  omega

theorem highNs_one : highNs Config.txcfg (encBit true) = 750 := by
  rw [highNs, byteLevels_one, bitPeriodNs_txcfg]
  rfl

theorem lowNs_one : lowNs Config.txcfg (encBit true) = 250 := by
  rw [lowNs, byteLevels_one, bitPeriodNs_txcfg]
  rfl

theorem highNs_zero : highNs Config.txcfg (encBit false) = 250 := by
  rw [highNs, byteLevels_zero, bitPeriodNs_txcfg]
  rfl

theorem lowNs_zero : lowNs Config.txcfg (encBit false) = 750 := by
  rw [lowNs, byteLevels_zero, bitPeriodNs_txcfg]
  rfl

/-- Settles O56: the runs of a symbol's levels give its high and low times, and the length of the bytes their duration. -/
theorem lineDurationsAreTheDerivedOnes : Obligations.LineDurationsAreTheDerivedOnes := by
  refine ⟨highNs_one, lowNs_one, highNs_zero, lowNs_zero, durationNs_txcfg, durationNs_txcfg resetGap,
    fun strip => ?frame⟩
  case frame => rw [durationNs_txcfg, length_frameEncode]

/-! ## The LED chain -/

theorem symbolBit_encBit (b : Bool) : symbolBit (encBit b) = some b := by cases b <;> rfl

/-- The bits of a word, bit 23 first: the order in which a record's symbols are sent. -/
def bitsOfWord (w : BitVec 24) (n : Nat) : List Bool := (List.range n).map fun k => w.getLsbD (23 - k)

theorem filterMap_symbolBit_symbols (c : Led) : c.symbols.filterMap symbolBit = bitsOfWord c.grbWord 24 := by
  simp [Led.symbols, bitsOfWord, Config.symsPerLed, List.filterMap_map, symbolBit_encBit]

/-- Shifting in the first `n` bits of a word gives its top `n` bits. -/
theorem wordOfBits_bitsOfWord_eq_shift (w : BitVec 24) {n : Nat} (h : n ≤ 24) :
    wordOfBits (bitsOfWord w n) = w >>> (24 - n) := by
  induction n with
  | zero => exact (BitVec.ushiftRight_eq_zero Nat.le.refl).symm
  | succ n ih =>
    have ih := ih (by omega)
    simp only [wordOfBits, bitsOfWord, List.range_succ, List.map_append, List.foldl_append, List.map_cons,
      List.map_nil, List.foldl_cons, List.foldl_nil] at ih ⊢
    rw [ih]
    apply BitVec.eq_of_getLsbD_eq
    intro i hi
    cases i with
    | zero => simp
    | succ i => simp [hi]; congr 1; omega

theorem wordOfBits_bitsOfWord (w : BitVec 24) : wordOfBits (bitsOfWord w 24) = w :=
  (wordOfBits_bitsOfWord_eq_shift w Nat.le.refl).trans (BitVec.ushiftRight_zero w)

/-- Group `j` of a frame is the symbols of record `j`. -/
theorem frameEncode_group (strip : Vector Led 10) {j : Nat} (h : j < 10) :
    ((frameEncode strip).drop (24 * j)).take 24 = strip[j].symbols := by
  apply List.ext_getElem?
  intro k
  by_cases inside : k < 24
  · rw [List.getElem?_take_of_lt inside, List.getElem?_drop, getElem?_frameEncode_symbol strip h inside,
      Led.getElem?_symbols _ inside]
  · rw [List.getElem?_eq_none (by simp; omega), List.getElem?_eq_none (by simp; omega)]

/-- Past the last record, the line carries no symbol. -/
theorem filterMap_symbolBit_past_records (strip : Vector Led 10) {j : Nat} (h : 10 ≤ j) :
    (((frameEncode strip).drop (24 * j)).take 24).filterMap symbolBit = [] := by
  refine List.filterMap_eq_nil_iff.mpr fun b mem => ?_
  obtain ⟨k, byte⟩ := List.getElem?_of_mem (List.mem_of_mem_take mem)
  rw [List.getElem?_drop] at byte
  rw [frameEncode_gap_byte byte (by omega)]
  rfl

/-- Settles O57. -/
theorem chainLedTakesItsRecord : Obligations.ChainLedTakesItsRecord := by
  refine fun strip => ⟨fun j h => ?record, fun j h => ?past⟩
  case record =>
    rw [chainLed, frameEncode_group strip h, filterMap_symbolBit_symbols, wordOfBits_bitsOfWord,
      Led.ofGrbWord_grbWord]
    exact if_pos (by simp [bitsOfWord])
  case past =>
    rw [chainLed, filterMap_symbolBit_past_records strip h]
    rfl

end Sys2Proof.Machine
end

section
/-! SUPPORT. What each command writes: STRIP, SYMBUF, the transport, and nothing of the hosts and the port's turns
(42_led_state_store.md, 10_state.md sections 1, 2). -/

namespace Sys2Proof.Machine

/-! ## STRIP -/

theorem Completes.strip_eq {i : Instr} {s t : State} (h : Completes i s t) (noWrite : writesStrip i = false) :
    t.strip = s.strip := by
  cases h with
  | setLed | setLedInvalid | setAllLeds | clearLeds => simp [writesStrip] at noWrite
  | initReady | initNotReady | deinit | getLed | getLedInvalid | encBit => rfl
  | updateUninitialized | updateNotReady | updateTransmits => rfl

theorem execList_strip_eq {is : List Instr} {s u : State} (noWrites : ∀ i ∈ is, writesStrip i = false)
    (run : execList is s = .next u) : u.strip = s.strip := by
  induction is generalizing s with
  | nil => cases run; rfl
  | cons i is ih =>
    obtain ⟨t, executed, rest⟩ := execList_cons_next run
    obtain ⟨noWrite, restNoWrites⟩ := List.forall_mem_cons.mp noWrites
    exact (ih restNoWrites rest).trans ((Completes.of_exec executed).strip_eq noWrite)

/-- Settles O21: the records `get_led` reads are those `set_led` left, because the commands between write none. -/
theorem getLedReadsWhatSetLedWrote : Obligations.GetLedReadsWhatSetLedWrote := by
  intro idx r g b between s t u valid written noWrites run
  have strip : u.strip = s.strip.set idx.toNat ⟨r, g, b⟩ valid := by
    rw [execList_strip_eq noWrites run]
    rw [(Completes.setLed valid).exec_eq] at written
    cases written
    rfl
  refine ⟨?same, fun j hj other => ?others⟩
  case same =>
    have record : u.led idx.toNat valid = ⟨r, g, b⟩ := by
      simp only [State.led, strip, Vector.getElem_set_self]
    rw [exec_getLed_of_valid u valid, record]
    rfl
  case others => simp only [strip, Vector.getElem_set_ne valid hj other.symm]

theorem writesStrip_eq_false_of_mnemonic {i : Instr} (notSetLed : i.mnemonic ≠ .setLed)
    (notSetAllLeds : i.mnemonic ≠ .setAllLeds) (notClearLeds : i.mnemonic ≠ .clearLeds) : writesStrip i = false := by
  cases i with
  | setLed => exact absurd rfl notSetLed
  | setAllLeds => exact absurd rfl notSetAllLeds
  | clearLeds => exact absurd rfl notClearLeds
  | init | deinit | getLed | encBit | update => rfl

theorem Completes.store_frame {i : Instr} {s t : State} (h : Completes i s t)
    (store : i.mnemonic = .setLed ∨ i.mnemonic = .setAllLeds ∨ i.mnemonic = .clearLeds ∨ i.mnemonic = .getLed) :
    t.symbuf = s.symbuf ∧ t.initialized = s.initialized ∧ t.txLog = s.txLog ∧ t.transport = s.transport := by
  cases h with
  | setLed | setLedInvalid | setAllLeds | clearLeds | getLed | getLedInvalid => exact ⟨rfl, rfl, rfl, rfl⟩
  | initReady | initNotReady | deinit | encBit => simp [Instr.mnemonic] at store
  | updateUninitialized | updateNotReady | updateTransmits => simp [Instr.mnemonic] at store

/-- Settles O23. -/
theorem storeInvariants : Obligations.StoreInvariants :=
  ⟨fun _ => Vector.length_toList,
    fun _ _ _ h notSetLed notSetAllLeds notClearLeds =>
      (Completes.of_exec h).strip_eq (writesStrip_eq_false_of_mnemonic notSetLed notSetAllLeds notClearLeds),
    fun _ _ _ h store => (Completes.of_exec h).store_frame store⟩

/-- Settles O9: both fill STRIP with the record of zeros and answer OK. -/
theorem clearLedsIsSetAllLedsOfZero : Obligations.ClearLedsIsSetAllLedsOfZero :=
  fun _ => Completes.clearLeds.exec_eq.trans Completes.setAllLeds.exec_eq.symm

/-! ## `update` -/

/-- Everything a completed `update` can be, with the payload said as the frame. -/
theorem Completes.update_cases {s t : State} (h : Completes .update s t) :
    (s.initialized = false ∧ t = s.respond ErrorKind.deviceNotReady.response) ∨
    (s.readyAnswer = false ∧ t = s.readyAsked.respond ErrorKind.deviceNotReady.response) ∨
    ∃ status emitted, s.initialized = true ∧ s.readyAnswer = true ∧
      writeResult s.writeAnswer (frameEncode s.strip) = some (status, emitted) ∧ t = s.transmitted status emitted := by
  cases h with
  | updateUninitialized uninit => exact .inl ⟨uninit, rfl⟩
  | updateNotReady _ notReady => exact .inr (.inl ⟨notReady, rfl⟩)
  | updateTransmits init ready written =>
    rw [payloadOf_eq_frameEncode] at written ⊢
    exact .inr (.inr ⟨_, _, init, ready, written, rfl⟩)

theorem Completes.update_transmits {s t : State} (h : Completes .update s t) (init : s.initialized = true)
    (ready : s.readyAnswer = true) : ∃ status emitted,
      writeResult s.writeAnswer (frameEncode s.strip) = some (status, emitted) ∧ t = s.transmitted status emitted := by
  obtain ⟨uninit, -⟩ | ⟨notReady, -⟩ | ⟨status, emitted, -, -, written, rfl⟩ := h.update_cases
  · simp [init] at uninit
  · simp [ready] at notReady
  · exact ⟨status, emitted, written, rfl⟩

/-! ## SYMBUF -/

theorem Completes.symbuf_eq {i : Instr} {s t : State} (h : Completes i s t) (notUpdate : i ≠ .update) :
    t.symbuf = s.symbuf := by
  cases h with
  | updateUninitialized | updateNotReady | updateTransmits => exact absurd rfl notUpdate
  | initReady | initNotReady | deinit | setLed | setLedInvalid | setAllLeds | clearLeds => rfl
  | getLed | getLedInvalid | encBit => rfl

theorem Completes.update_symbuf_eq {s t : State} (h : Completes .update s t)
    (blocked : s.initialized = false ∨ s.readyAnswer = false) : t.symbuf = s.symbuf := by
  obtain ⟨-, rfl⟩ | ⟨-, rfl⟩ | ⟨_, _, init, ready, -, -⟩ := h.update_cases
  · rfl
  · rfl
  · simp [init, ready] at blocked

/-- The state with SYMBUF replaced. -/
def State.withSymbuf (s : State) (m : Memory) : State := { s with symbuf := m }

/-- A command takes the same branch whatever SYMBUF holds, with the same outcome up to SYMBUF itself: `update` transmits
the frame it has stored, not what stood there before. -/
theorem Completes.withSymbuf {i : Instr} {s t : State} (h : Completes i s t) (m : Memory) :
    ∃ m', Completes i (s.withSymbuf m) (t.withSymbuf m') := by
  cases h with
  | initReady ready => exact ⟨m, .initReady ready⟩
  | initNotReady notReady => exact ⟨m, .initNotReady notReady⟩
  | deinit => exact ⟨m, .deinit⟩
  | setLed valid => exact ⟨m, .setLed valid⟩
  | setLedInvalid invalid => exact ⟨m, .setLedInvalid invalid⟩
  | setAllLeds => exact ⟨m, .setAllLeds⟩
  | clearLeds => exact ⟨m, .clearLeds⟩
  | getLed valid => exact ⟨m, .getLed valid⟩
  | getLedInvalid invalid => exact ⟨m, .getLedInvalid invalid⟩
  | encBit => exact ⟨m, .encBit⟩
  | updateUninitialized uninit => exact ⟨m, .updateUninitialized uninit⟩
  | updateNotReady init notReady => exact ⟨m, .updateNotReady init notReady⟩
  | updateTransmits init ready written =>
    have samePayload : payloadOf (s.withSymbuf m) = payloadOf s := by simp only [payloadOf_eq_frameEncode]; rfl
    rw [← samePayload] at written ⊢
    exact ⟨_, .updateTransmits init ready written⟩

theorem State.transmitted_symbufByte_inside (s : State) (status : TxStatus) (emitted : List Byte) {k : Nat} {b : Byte}
    (byte : (frameEncode s.strip)[k]? = some b) : (s.transmitted status emitted).symbufByte k = b := by
  obtain ⟨inside, rfl⟩ := List.getElem?_eq_some_iff.mp byte
  have stored := Memory.readByte_writeBytes_inside s.symbuf 0 k (frameEncode s.strip) inside
  rwa [Nat.zero_add] at stored

theorem State.transmitted_symbufByte_outside (s : State) (status : TxStatus) (emitted : List Byte) {a : Nat}
    (outside : (frameEncode s.strip).length ≤ a) : (s.transmitted status emitted).symbufByte a = s.symbufByte a :=
  Memory.readByte_writeBytes_outside s.symbuf 0 a (frameEncode s.strip) (.inr (by omega))

/-- Settles O26. -/
theorem symbufIsWrittenWholeByUpdateOnly : Obligations.SymbufIsWrittenWholeByUpdateOnly := by
  refine ⟨fun i s t h notUpdate a => ?others, fun s t h blocked a => ?blocked, fun s t h init ready => ?sent,
    fun i s t m h => ?unread⟩
  case others => rw [State.symbufByte, (Completes.of_exec h).symbuf_eq notUpdate]; rfl
  case blocked => rw [State.symbufByte, (Completes.of_exec h).update_symbuf_eq blocked]; rfl
  case sent =>
    obtain ⟨status, emitted, -, rfl⟩ := (Completes.of_exec h).update_transmits init ready
    exact ⟨fun _ _ => s.transmitted_symbufByte_inside status emitted,
      fun _ => s.transmitted_symbufByte_outside status emitted⟩
  case unread =>
    obtain ⟨m', h'⟩ := (Completes.of_exec h).withSymbuf m
    exact ⟨_, h'.exec_eq, rfl⟩

/-! ## Hosts, turns and transport -/

/-- No command touches the hosts or the port's turns. -/
theorem Completes.hosts_and_turns_eq {i : Instr} {s t : State} (h : Completes i s t) :
    t.hosts = s.hosts ∧ t.turns = s.turns ∧ t.turnDraws = s.turnDraws := by
  cases h <;> exact ⟨rfl, rfl, rfl⟩

theorem Completes.transport_eq {i : Instr} {s t : State} (h : Completes i s t) (notInit : i ≠ .init)
    (notUpdate : i ≠ .update) : t.transport = s.transport := by
  cases h with
  | initReady | initNotReady => exact absurd rfl notInit
  | updateUninitialized | updateNotReady | updateTransmits => exact absurd rfl notUpdate
  | deinit | setLed | setLedInvalid | setAllLeds | clearLeds | getLed | getLedInvalid | encBit => rfl

/-- The command is an `update` past both readiness checks whose write never returns (60_exceptions.md R165). -/
def Hangs (i : Instr) (s : State) : Prop :=
  i = .update ∧ s.initialized = true ∧ s.readyAnswer = true ∧ s.writeAnswer = .neverReturns

theorem Hangs.exec_eq {i : Instr} {s : State} (h : Hangs i s) : exec i s = .fault .txWriteNeverReturns := by
  obtain ⟨rfl, init, ready, never⟩ := h
  refine (execUpdate_eq s).trans ((if_pos init).trans ((if_pos ready).trans ?_))
  rw [transmit_eq, State.readyAsked_writeAnswer, never]
  rfl

/-- Every command completes, or hangs. -/
theorem completes_or_hangs (i : Instr) (s : State) : (∃ t, Completes i s t) ∨ Hangs i s := by
  cases i with
  | init =>
    cases ready : s.readyAnswer with
    | true => exact .inl ⟨_, .initReady ready⟩
    | false => exact .inl ⟨_, .initNotReady ready⟩
  | deinit => exact .inl ⟨_, .deinit⟩
  | setLed idx r g b =>
    obtain valid | invalid := Nat.lt_or_ge idx.toNat Config.stripLen
    · exact .inl ⟨_, .setLed valid⟩
    · exact .inl ⟨_, .setLedInvalid invalid⟩
  | setAllLeds r g b => exact .inl ⟨_, .setAllLeds⟩
  | clearLeds => exact .inl ⟨_, .clearLeds⟩
  | getLed idx =>
    obtain valid | invalid := Nat.lt_or_ge idx.toNat Config.stripLen
    · exact .inl ⟨_, .getLed valid⟩
    · exact .inl ⟨_, .getLedInvalid invalid⟩
  | encBit bit => exact .inl ⟨_, .encBit⟩
  | update =>
    cases init : s.initialized with
    | false => exact .inl ⟨_, .updateUninitialized init⟩
    | true =>
      cases ready : s.readyAnswer with
      | false => exact .inl ⟨_, .updateNotReady init ready⟩
      | true =>
        cases written : writeResult s.writeAnswer (payloadOf s) with
        | some result => exact .inl ⟨_, .updateTransmits init ready written⟩
        | none => exact .inr ⟨rfl, init, ready, writeResult_none.mp written⟩

/-- Settles O39. -/
theorem commandsLeaveHostsAndTurnsAlone : Obligations.CommandsLeaveHostsAndTurnsAlone := by
  intro i s
  obtain ⟨t, h⟩ | hangs := completes_or_hangs i s
  · obtain ⟨hosts, turns, turnDraws⟩ := h.hosts_and_turns_eq
    exact .inl ⟨t, h.exec_eq, hosts, turns, turnDraws, h.transport_eq⟩
  · exact .inr ⟨hangs.1, hangs.exec_eq⟩

end Sys2Proof.Machine
end

section
/-! SUPPORT. What each result says of the block: the results of each command, errors that change nothing, the outcomes of
`update`, and commands issued twice (60_exceptions.md sections 1, 3; 43_transmit_driver.md sections 4, 5). -/

namespace Sys2Proof.Machine

/-! ## Results and errors -/

/-- Settles O28. -/
theorem commandsReturnOnlyTheirResults : Obligations.CommandsReturnOnlyTheirResults := by
  intro i s t h
  obtain ⟨x, response, listed⟩ := (Completes.of_exec h).result_mem
  refine ⟨x, response, ?_⟩
  cases i <;> exact listed

theorem statusResponse_result (status : TxStatus) :
    (statusResponse status).result = 0x00#8 ∨ (statusResponse status).result = 0x03#8 := by
  cases status with
  | ok => exact .inl rfl
  | fail => exact .inr rfl

/-- The branches that end in an error without a write change only the response and what the transport was asked. -/
theorem Completes.sameBlock_of_error {i : Instr} {s t : State} {x : Response} (h : Completes i s t)
    (response : t.response = some x) (notOk : x.result ≠ 0x00#8) (notFailed : x.result ≠ 0x03#8) : SameBlock s t := by
  cases h with
  | initNotReady | setLedInvalid | getLedInvalid | updateUninitialized | updateNotReady => exact ⟨rfl, rfl, rfl, rfl⟩
  | initReady | deinit | setLed | setAllLeds | clearLeds | getLed | encBit =>
    cases response
    exact absurd rfl notOk
  | @updateTransmits _ status =>
    cases response
    obtain ok | failed := statusResponse_result status
    · exact absurd ok notOk
    · exact absurd failed notFailed

/-- Settles O31: an illegal word changes nothing, and a command only in the branches that succeed or transmit. -/
theorem errorsBeforeTheWriteChangeNoBlockState : Obligations.ErrorsBeforeTheWriteChangeNoBlockState := by
  intro w s t x h response notOk notFailed
  obtain ⟨_, _, executed⟩ | ⟨_, _, rfl⟩ := runWord_next h
  · exact (Completes.of_exec executed).sameBlock_of_error response notOk notFailed
  · exact ⟨rfl, rfl, rfl, rfl⟩

/-! ## The outcomes of `update` -/

theorem State.transmitted_memRead (s : State) (status : TxStatus) (emitted : List Byte) :
    (s.transmitted status emitted).memRead 0 304 = frameEncode s.strip := payloadOf_eq_frameEncode s

/-- Settles O32: both checks that fail write nothing but the response; past them the frame is stored and one event
appended, whose status and emission are those of the write. -/
theorem updateOutcomesLeaveWhatTheTableSays : Obligations.UpdateOutcomesLeaveWhatTheTableSays := by
  intro s t x h response
  obtain ⟨-, rfl⟩ | ⟨-, rfl⟩ | ⟨status, emitted, -, -, written, rfl⟩ := (Completes.of_exec h).update_cases
  · cases response
    exact ⟨rfl, rfl, fun _ => ⟨rfl, rfl⟩, nofun, nofun⟩
  · cases response
    exact ⟨rfl, rfl, fun _ => ⟨rfl, rfl⟩, nofun, nofun⟩
  · cases response
    have stored := s.transmitted_memRead status emitted
    obtain ⟨rfl, rfl⟩ | ⟨code, -, rfl, pre⟩ := writeResult_cases written
    · exact ⟨rfl, rfl, nofun, nofun, fun _ => ⟨stored, rfl⟩⟩
    · exact ⟨rfl, rfl, nofun, fun _ => ⟨stored, _, rfl, rfl, rfl, pre⟩, nofun⟩

theorem Completes.txLog_eq {i : Instr} {s t : State} (h : Completes i s t) (notUpdate : i ≠ .update) :
    t.txLog = s.txLog := by
  obtain ⟨log_eq, -, -⟩ | ⟨_, isUpdate, -⟩ := h.leaves_or_appends_txLog
  · exact log_eq
  · exact absurd isUpdate notUpdate

/-- Settles O36: `init` leaves the strip of reset and the empty log, and `update` appends the frame of that strip. -/
theorem firstUpdateAfterResetSendsBlack : Obligations.FirstUpdateAfterResetSendsBlack := by
  intro s t u ⟨resetStrip, _, _, resetLog⟩ opened _ updated response
  have strip : t.strip = Vector.replicate 10 stripInit :=
    ((Completes.of_exec opened).strip_eq rfl).trans resetStrip
  have log : t.txLog = [] := ((Completes.of_exec opened).txLog_eq (by decide)).trans resetLog
  obtain ⟨-, -, -, -, ok⟩ := updateOutcomesLeaveWhatTheTableSays t u _ updated response
  obtain ⟨-, appended⟩ := ok rfl
  rw [appended, log, strip, frameEncode_black, List.nil_append]

/-- An `update` that appended an event transmitted the frame of its strip. -/
theorem Completes.payload_of_appended {s t : State} {e : TxEvent} (h : Completes .update s t)
    (appended : t.txLog = s.txLog ++ [e]) : e.payload = frameEncode s.strip := by
  obtain ⟨-, rfl⟩ | ⟨-, rfl⟩ | ⟨status, emitted, -, -, -, rfl⟩ := h.update_cases
  · simp at appended
  · simp at appended
  · obtain rfl : ⟨frameEncode s.strip, status, emitted⟩ = e := by simpa [State.transmitted] using appended
    rfl

/-- Settles O38: each payload is the frame of the strip at its `update`, and neither the first `update` nor a command
between writes STRIP. -/
theorem updatesWithoutStoresSendEqualPayloads : Obligations.UpdatesWithoutStoresSendEqualPayloads := by
  intro between s t u v a b first appendedA noWrites run second appendedB
  have sameStrip : u.strip = s.strip :=
    (execList_strip_eq noWrites run).trans ((Completes.of_exec first).strip_eq rfl)
  rw [(Completes.of_exec first).payload_of_appended appendedA,
    (Completes.of_exec second).payload_of_appended appendedB, sameStrip]

/-! ## Commands issued twice -/

/-- A command other than `update`, issued again, takes the same branch and finds its writes done. -/
theorem Completes.again {i : Instr} {s t : State} (h : Completes i s t) (notUpdate : i ≠ .update)
    (sameDraw : i = .init → t.readyAnswer = s.readyAnswer) :
    ∃ u, Completes i t u ∧ SameBlock t u ∧ u.response = t.response := by
  cases h with
  | initReady ready => exact ⟨_, .initReady ((sameDraw rfl).trans ready), by simp [SameBlock], rfl⟩
  | initNotReady notReady => exact ⟨_, .initNotReady ((sameDraw rfl).trans notReady), ⟨rfl, rfl, rfl, rfl⟩, rfl⟩
  | deinit => exact ⟨_, .deinit, ⟨rfl, rfl, rfl, rfl⟩, rfl⟩
  | setLed valid => exact ⟨_, .setLed valid, ⟨Vector.set_set (hi := valid) .., rfl, rfl, rfl⟩, rfl⟩
  | setLedInvalid invalid => exact ⟨_, .setLedInvalid invalid, ⟨rfl, rfl, rfl, rfl⟩, rfl⟩
  | setAllLeds => exact ⟨_, .setAllLeds, ⟨rfl, rfl, rfl, rfl⟩, rfl⟩
  | clearLeds => exact ⟨_, .clearLeds, ⟨rfl, rfl, rfl, rfl⟩, rfl⟩
  | getLed valid => exact ⟨_, .getLed valid, ⟨rfl, rfl, rfl, rfl⟩, rfl⟩
  | getLedInvalid invalid => exact ⟨_, .getLedInvalid invalid, ⟨rfl, rfl, rfl, rfl⟩, rfl⟩
  | encBit => exact ⟨_, .encBit, ⟨rfl, rfl, rfl, rfl⟩, rfl⟩
  | updateUninitialized | updateNotReady | updateTransmits => exact absurd rfl notUpdate

/-- Settles O37. -/
theorem everyCommandButUpdateIsIdempotent : Obligations.EveryCommandButUpdateIsIdempotent := by
  refine ⟨fun i s t notUpdate sameDraw h => ?again, fun s t init ready h => ?update⟩
  case again =>
    obtain ⟨u, h', block, response⟩ := (Completes.of_exec h).again notUpdate sameDraw
    exact ⟨u, h'.exec_eq, block, response⟩
  case update =>
    obtain ⟨_, _, -, rfl⟩ := (Completes.of_exec h).update_transmits init ready
    exact List.length_append

end Sys2Proof.Machine
end

section
/-! SUPPORT. The step, the port and the hosts (20_memory.md section 3, 60_exceptions.md sections 3, 5). -/

namespace Sys2Proof.Machine

/-! ## One word -/

theorem runWord_of_decode_ok {w : CmdWord} {i : Instr} (decoded : decode w = .ok i) (s : State) :
    runWord w s = exec i s := by
  rw [runWord, decoded]

theorem runWord_of_decode_error {w : CmdWord} {e : Reject} (illegal : decode w = .error e) (s : State) :
    runWord w s = .next (s.respond ErrorKind.illegalCommand.response) := by
  rw [runWord, illegal]
  rfl

/-- Every word completes, or is an `update` that hangs. -/
theorem runWord_completes_or_hangs (w : CmdWord) (s : State) :
    (∃ t, runWord w s = .next t) ∨ (decode w = .ok .update ∧ Hangs .update s) := by
  cases decoded : decode w with
  | error e => exact .inl ⟨_, runWord_of_decode_error decoded s⟩
  | ok i =>
    obtain ⟨t, h⟩ | hangs := completes_or_hangs i s
    · exact .inl ⟨t, (runWord_of_decode_ok decoded s).trans h.exec_eq⟩
    · obtain rfl := hangs.1
      exact .inr ⟨rfl, hangs⟩

theorem runWord_hosts_eq {w : CmdWord} {s t : State} (h : runWord w s = .next t) : t.hosts = s.hosts := by
  obtain ⟨_, _, executed⟩ | ⟨_, _, rfl⟩ := runWord_next h
  · exact (Completes.of_exec executed).hosts_and_turns_eq.1
  · rfl

theorem ErrorKind.response_wf {e : ErrorKind} (nonzero : ∀ code, e = .transportWriteFailed code → code ≠ 0) :
    e.response.Wf := by
  cases e with
  | deviceNotReady => exact deviceNotReady_wf
  | invalidIndex index => exact invalidIndex_wf index
  | transportWriteFailed code => exact transportWriteFailed_wf code (nonzero code rfl)
  | illegalCommand => exact illegalCommand_wf

theorem runWord_responds {w : CmdWord} {s t : State} (h : runWord w s = .next t) :
    ∃ x, t.response = some x ∧ x.Wf := by
  obtain ⟨data, response, -⟩ | ⟨e, response, failed⟩ := runWord_returns_ok_or_error h
  · exact ⟨_, response, okResponse_wf data⟩
  · exact ⟨_, response, ErrorKind.response_wf fun code isFailure => (failed code isFailure).1⟩

/-! ## One step -/

theorem step_of_accept {s a : State} {k : Nat} {w : CmdWord} (accepted : s.accept = some (k, w, a)) :
    step s = deliverOutcome k (runWord w a) := by
  rw [step, accepted]

theorem step_of_accept_none {s : State} (waits : s.accept = none) : step s = .next s := by
  rw [step, waits]

/-- Settles O47. -/
theorem stepRunsTheDecodedCommand : Obligations.StepRunsTheDecodedCommand := by
  refine fun s a k w accepted => ⟨fun i t decoded executed => ?next, fun i f decoded executed => ?fault,
    fun e illegal => ?illegal⟩
  case next => rw [step_of_accept accepted, runWord_of_decode_ok decoded, executed]; rfl
  case fault => rw [step_of_accept accepted, runWord_of_decode_ok decoded, executed]; rfl
  case illegal => rw [step_of_accept accepted, runWord_of_decode_error illegal]; rfl

theorem readyHosts_eq_nil_iff {hs : List CommandHost} : readyHosts hs = [] ↔ ∀ h ∈ hs, h.commands = [] := by
  constructor
  · intro none h mem
    by_contra waiting
    obtain ⟨i, at_i⟩ := List.getElem?_of_mem mem
    have ready : 0 + i ∈ readyHosts hs := readyHostsFrom_mem at_i waiting
    rw [none] at ready
    exact absurd ready List.not_mem_nil
  · intro idle
    refine List.eq_nil_iff_forall_not_mem.mpr fun k ready => ?_
    obtain ⟨h, at_k, waiting⟩ := mem_readyHosts ready
    exact waiting (idle h (List.mem_of_getElem? at_k))

/-- Settles O48. -/
theorem stepWaitsWithoutACommand : Obligations.StepWaitsWithoutACommand :=
  fun _ idle => step_of_accept_none (State.accept_none.mpr (readyHosts_eq_nil_iff.mpr idle))

/-! ## The host that is answered -/

theorem State.accept_hosts {s a : State} {k : Nat} {w : CmdWord} (accepted : s.accept = some (k, w, a)) :
    ∃ ws rs, s.hosts[k]? = some ⟨w :: ws, rs⟩ ∧ a.hosts = s.hosts.set k ⟨ws, rs⟩ := by
  obtain ⟨ws, rs, issuing, rfl | rfl⟩ := State.accept_some accepted
  · exact ⟨ws, rs, issuing, rfl⟩
  · exact ⟨ws, rs, issuing, rfl⟩

theorem modify_set_same {α : Type} (l : List α) (k : Nat) (a : α) (f : α → α) :
    (l.set k a).modify k f = l.set k (f a) := by
  induction l generalizing k with
  | nil => simp
  | cons b l ih => cases k <;> simp [ih]

/-- A step that runs a word takes it from its host's list and appends one response to that host's; no other host is
touched. -/
theorem deliver_hosts_of_accept {s a u : State} {k : Nat} {w : CmdWord} (accepted : s.accept = some (k, w, a))
    (ran : runWord w a = .next u) : ∃ ws rs x, s.hosts[k]? = some ⟨w :: ws, rs⟩ ∧ x.Wf ∧
      (u.deliver k).hosts = s.hosts.set k ⟨ws, rs ++ [x]⟩ := by
  obtain ⟨ws, rs, issuing, consumed⟩ := State.accept_hosts accepted
  obtain ⟨x, response, wf⟩ := runWord_responds ran
  refine ⟨ws, rs, x, issuing, wf, ?_⟩
  rw [State.deliver_hosts_of_some u k x response, runWord_hosts_eq ran, consumed, modify_set_same]

/-- Settles O49. -/
theorem stepAnswersOneHostsFirstCommand : Obligations.StepAnswersOneHostsFirstCommand := by
  rintro s t ⟨h, mem, waiting⟩ stepped
  obtain ⟨waits, -⟩ | ⟨k, w, a, u, accepted, ran, rfl⟩ := step_next stepped
  · exact absurd (readyHosts_eq_nil_iff.mp (State.accept_none.mp waits) h mem) waiting
  · obtain ⟨ws, rs, x, issuing, -, hosts⟩ := deliver_hosts_of_accept accepted ran
    obtain ⟨inside, -⟩ := List.getElem?_eq_some_iff.mp issuing
    refine ⟨k, w, ws, rs, x, issuing, ?answered, ?length, fun j other => ?others, u.deliver_response k⟩
    case answered => rw [hosts, List.getElem?_set_self inside]
    case length => rw [hosts, List.length_set]
    case others => rw [hosts, List.getElem?_set_ne other.symm]

/-- Any host with a command is served under some turn: the only one under every turn, one of several under the turn that
is its position among them. -/
theorem State.exists_turn_of_ready {s : State} {k : Nat} (ready : k ∈ readyHosts s.hosts) :
    ∃ n t, State.arbitrate { s with turns := n :: s.turns } = some (k, t) := by
  unfold State.arbitrate
  match among : readyHosts s.hosts with
  | [] => simp [among] at ready
  | [j] =>
    obtain rfl : k = j := by simpa [among] using ready
    exact ⟨0, _, by simp only [among]; rfl⟩
  | j :: j' :: js =>
    rw [among] at ready
    obtain ⟨n, inside, at_n⟩ := List.getElem_of_mem ready
    have turn : n % (js.length + 2) = n := Nat.mod_eq_of_lt inside
    refine ⟨n, State.turnTaken { s with turns := n :: s.turns }, ?_⟩
    simp only [among, State.turnAnswer, turn, List.getD_eq_getElem?_getD, List.getElem?_eq_getElem inside, at_n,
      Option.getD_some]

/-- Settles O50. -/
theorem anyHostWithACommandCanBeServed : Obligations.AnyHostWithACommandCanBeServed := by
  intro s k w ws rs issuing
  have ready : 0 + k ∈ readyHosts s.hosts := readyHostsFrom_mem issuing (List.cons_ne_nil w ws)
  rw [Nat.zero_add] at ready
  obtain ⟨n, t, served⟩ := State.exists_turn_of_ready ready
  have hosts : t.hosts = s.hosts := by obtain ⟨-, rfl | rfl⟩ := State.arbitrate_some served <;> rfl
  refine ⟨n, { t with hosts := s.hosts.set k ⟨ws, rs⟩ }, ?_⟩
  simp only [State.accept, served, hosts, issuing]

/-! ## The step that does not complete -/

/-- The step's command is an `update` that hangs. -/
def StepHangs (s : State) : Prop :=
  ∃ k w a, s.accept = some (k, w, a) ∧ decode w = .ok .update ∧ Hangs .update a

theorem StepHangs.step_eq {s : State} (h : StepHangs s) : step s = .fault .txWriteNeverReturns := by
  obtain ⟨k, w, a, accepted, decoded, hangs⟩ := h
  rw [step_of_accept accepted, runWord_of_decode_ok decoded, hangs.exec_eq]
  rfl

/-- Every step completes, or its command hangs. -/
theorem step_completes_or_hangs (s : State) : (∃ t, step s = .next t) ∨ StepHangs s := by
  cases accepted : s.accept with
  | none => exact .inl ⟨s, step_of_accept_none accepted⟩
  | some served =>
    obtain ⟨k, w, a⟩ := served
    obtain ⟨u, ran⟩ | ⟨decoded, hangs⟩ := runWord_completes_or_hangs w a
    · exact .inl ⟨u.deliver k, by rw [step_of_accept accepted, ran]; rfl⟩
    · exact .inr ⟨k, w, a, accepted, decoded, hangs⟩

theorem step_eq_fault_iff {s : State} {f : Fault} : step s = .fault f ↔ f = .txWriteNeverReturns ∧ StepHangs s := by
  obtain ⟨t, completes⟩ | hangs := step_completes_or_hangs s
  · have notHangs : ¬ StepHangs s := fun hangs => by simp [hangs.step_eq] at completes
    simp [completes, notHangs]
  · simp [hangs.step_eq, hangs]

/-- Settles O51. -/
theorem onlyAWriteThatNeverReturnsStops : Obligations.OnlyAWriteThatNeverReturnsStops := by
  refine ⟨fun s f => ?fault, fun s r refused => ?refused⟩
  case fault => simp only [step_eq_fault_iff, StepHangs, Hangs, true_and]
  case refused =>
    obtain ⟨t, completes⟩ | hangs := step_completes_or_hangs s
    · simp [completes] at refused
    · simp [hangs.step_eq] at refused

/-! ## Progress while writes return -/

theorem State.writeAnswerAt_zero (s : State) : s.writeAnswerAt 0 = s.writeAnswer := by
  rw [State.writeAnswerAt, State.writeAnswer]
  cases s.transport.writeAnswers <;> rfl

theorem State.writeAnswerAt_eq_of_transport {s t : State} (h : t.transport = s.transport) :
    t.writeAnswerAt = s.writeAnswerAt := by
  funext j
  rw [State.writeAnswerAt, h]
  rfl

theorem State.writeAsked_writeAnswerAt (s : State) (j : Nat) :
    s.writeAsked.writeAnswerAt j = s.writeAnswerAt (j + 1) := by
  simp only [State.writeAnswerAt, State.writeAsked_transport_writeAnswers, State.writeAsked_transport_writeCalls,
    List.getElem?_tail, Nat.add_right_comm _ 1 j, Nat.add_assoc]

/-- A command uses up the answer to at most one write. -/
def UsesWrites (n : Nat) (s t : State) : Prop := ∀ j, t.writeAnswerAt j = s.writeAnswerAt (j + n)

theorem Completes.usesWrites {i : Instr} {s t : State} (h : Completes i s t) : ∃ n ≤ 1, UsesWrites n s t := by
  cases h with
  | updateTransmits => exact ⟨1, Nat.le.refl, fun j => s.writeAsked_writeAnswerAt j⟩
  | initReady | initNotReady | deinit | setLed | setLedInvalid | setAllLeds | clearLeds | getLed | getLedInvalid
  | encBit | updateUninitialized | updateNotReady => exact ⟨0, Nat.zero_le 1, fun _ => rfl⟩

theorem State.accept_transport {s a : State} {k : Nat} {w : CmdWord} (accepted : s.accept = some (k, w, a)) :
    a.transport = s.transport := by
  obtain ⟨_, _, -, rfl | rfl⟩ := State.accept_some accepted <;> rfl

theorem step_usesWrites {s t : State} (h : step s = .next t) : ∃ n ≤ 1, UsesWrites n s t := by
  obtain ⟨-, rfl⟩ | ⟨k, w, a, u, accepted, ran, rfl⟩ := step_next h
  · exact ⟨0, Nat.zero_le 1, fun _ => rfl⟩
  · have before := State.writeAnswerAt_eq_of_transport (State.accept_transport accepted)
    have after := State.writeAnswerAt_eq_of_transport (u.deliver_transport k)
    simp only [UsesWrites, ← before, after]
    obtain ⟨_, _, executed⟩ | ⟨_, _, rfl⟩ := runWord_next ran
    · exact (Completes.of_exec executed).usesWrites
    · exact ⟨0, Nat.zero_le 1, fun _ => rfl⟩

theorem transportReturns_of_step {s t : State} {k : Nat} (returns : s.transportReturns (k + 1))
    (h : step s = .next t) : t.transportReturns k := by
  obtain ⟨n, atMostOne, uses⟩ := step_usesWrites h
  intro j below
  rw [uses j]
  exact returns (j + n) (by omega)

theorem step_completes_of_transportReturns {s : State} {k : Nat} (returns : s.transportReturns (k + 1)) :
    ∃ t, step s = .next t := by
  obtain completes | ⟨_, _, a, accepted, -, -, -, -, never⟩ := step_completes_or_hangs s
  · exact completes
  · rw [← State.writeAnswerAt_zero, State.writeAnswerAt_eq_of_transport (State.accept_transport accepted)] at never
    exact absurd never (returns 0 (Nat.succ_pos k))

theorem run_succ_of_step {s t : State} (h : step s = .next t) (k : Nat) :
    Host.Core.run Sys2Proof.core (k + 1) s = Host.Core.run Sys2Proof.core k t := by
  have coreStep : Host.Core.step Sys2Proof.core s = .next t := h
  simp only [Host.Core.run, coreStep]

/-- Settles O52, by induction on the number of steps. -/
theorem stepsCompleteIfTheTransportReturns : Obligations.StepsCompleteIfTheTransportReturns := by
  intro k
  induction k with
  | zero => exact fun s _ => ⟨s, rfl⟩
  | succ k ih =>
    intro s returns
    obtain ⟨t, stepped⟩ := step_completes_of_transportReturns returns
    rw [run_succ_of_step stepped]
    exact ih t (transportReturns_of_step returns stepped)

end Sys2Proof.Machine
end

section
/-! SUPPORT. The invariant of every step (10_state.md sections 2 to 4, 20_memory.md section 3, 43_transmit_driver.md
section 4). -/

namespace Sys2Proof.Machine

/-- The part of the invariant that speaks of the block and the transport. -/
structure State.BlockInv (s : State) : Prop where
  symbufWf : Memory.wf s.symbuf
  symbufHoldsLastFrame : s.symbuf = lastFrame s.txLog
  eventsWf : ∀ e ∈ s.txLog, e.Wf
  configured : s.initialized = true → s.transport.config = some s.txcfg

/-- The part of the invariant that speaks of the hosts. -/
def HostsWf (hosts : List CommandHost) : Prop := ∀ h ∈ hosts, ∀ r ∈ h.responses, r.Wf

theorem State.inv_iff {s : State} : s.Inv ↔ s.BlockInv ∧ HostsWf s.hosts ∧ s.response = none := by
  constructor
  · rintro ⟨wf, lastFrame, events, responses, idle, configured⟩
    exact ⟨⟨wf, lastFrame, events, configured⟩, responses, idle⟩
  · rintro ⟨⟨wf, lastFrame, events, configured⟩, responses, idle⟩
    exact ⟨wf, lastFrame, events, responses, idle, configured⟩

/-- What writes neither SYMBUF nor TX_LOG keeps the block's part, if an initialised block stays configured. -/
theorem State.BlockInv.of_eq {s t : State} (inv : s.BlockInv) (symbuf : t.symbuf = s.symbuf) (log : t.txLog = s.txLog)
    (configured : t.initialized = true → t.transport.config = some t.txcfg) : t.BlockInv where
  symbufWf := symbuf ▸ inv.symbufWf
  symbufHoldsLastFrame := by rw [symbuf, log, inv.symbufHoldsLastFrame]
  eventsWf := log ▸ inv.eventsWf
  configured := configured

/-! ## A transaction -/

theorem lastFrame_concat (log : List TxEvent) (e : TxEvent) : lastFrame (log ++ [e]) = Memory.cells 0 e.payload := by
  rw [lastFrame, List.getLast?_concat]

theorem txEvent_wf_of_written {a : WriteAnswer} {strip : Vector Led 10} {status : TxStatus} {emitted : List Byte}
    (written : writeResult a (frameEncode strip) = some (status, emitted)) :
    TxEvent.Wf ⟨frameEncode strip, status, emitted⟩ := by
  obtain ⟨rfl, rfl⟩ | ⟨code, nonzero, rfl, pre⟩ := writeResult_cases written
  · exact ⟨⟨strip, rfl⟩, rfl⟩
  · exact ⟨⟨strip, rfl⟩, nonzero, pre⟩

/-- A frame fills the whole of SYMBUF, so what is stored is the payload of the event appended. -/
theorem State.BlockInv.transmitted {s : State} (inv : s.BlockInv) {status : TxStatus} {emitted : List Byte}
    (written : writeResult s.writeAnswer (frameEncode s.strip) = some (status, emitted)) :
    (s.transmitted status emitted).BlockInv where
  symbufWf := Memory.wf_writeBytes s.symbuf 0 _ inv.symbufWf
    (by rw [length_frameEncode_eq_bufLen, Nat.zero_add])
  symbufHoldsLastFrame :=
    (Memory.writeBytes_whole s.symbuf _ inv.symbufWf (length_frameEncode_eq_bufLen s.strip)).trans
      (lastFrame_concat s.txLog ⟨frameEncode s.strip, status, emitted⟩).symm
  eventsWf := by
    refine List.forall_mem_append.mpr ⟨inv.eventsWf, fun e mem => ?_⟩
    obtain rfl := List.mem_singleton.mp mem
    exact txEvent_wf_of_written written
  configured := inv.configured

/-! ## Commands, words and steps -/

theorem Completes.keeps_blockInv {i : Instr} {s t : State} (h : Completes i s t) (inv : s.BlockInv) : t.BlockInv := by
  cases h with
  | initReady => exact inv.of_eq rfl rfl fun _ => rfl
  | deinit => exact inv.of_eq rfl rfl (by simp)
  | initNotReady | setLed | setLedInvalid | setAllLeds | clearLeds | getLed | getLedInvalid | encBit
  | updateUninitialized | updateNotReady => exact inv.of_eq rfl rfl inv.configured
  | updateTransmits _ _ written =>
    rw [payloadOf_eq_frameEncode] at written ⊢
    exact inv.transmitted written

theorem runWord_keeps_blockInv {w : CmdWord} {s t : State} (h : runWord w s = .next t) (inv : s.BlockInv) :
    t.BlockInv := by
  obtain ⟨_, _, executed⟩ | ⟨_, _, rfl⟩ := runWord_next h
  · exact (Completes.of_exec executed).keeps_blockInv inv
  · exact inv.of_eq rfl rfl inv.configured

theorem State.accept_keeps_blockInv {s a : State} {k : Nat} {w : CmdWord} (accepted : s.accept = some (k, w, a))
    (inv : s.BlockInv) : a.BlockInv := by
  obtain ⟨_, _, -, rfl | rfl⟩ := State.accept_some accepted
  · exact inv.of_eq rfl rfl inv.configured
  · exact inv.of_eq rfl rfl inv.configured

theorem State.deliver_keeps_blockInv {s : State} (inv : s.BlockInv) (k : Nat) : (s.deliver k).BlockInv :=
  inv.of_eq (s.deliver_symbuf k) (s.deliver_txLog k) fun init => by
    rw [State.deliver_initialized] at init
    rw [State.deliver_transport]
    exact inv.configured init

/-- A host that issues a word and receives a well-formed response keeps its responses well formed, and the others theirs. -/
theorem HostsWf.set_answered {hosts : List CommandHost} {k : Nat} {cmds ws : List CmdWord} {rs : List Response}
    {x : Response} (wf : HostsWf hosts) (issuing : hosts[k]? = some ⟨cmds, rs⟩) (xWf : x.Wf) :
    HostsWf (hosts.set k ⟨ws, rs ++ [x]⟩) := by
  intro h mem
  obtain before | rfl := List.mem_or_eq_of_mem_set mem
  · exact wf h before
  · exact List.forall_mem_append.mpr
      ⟨wf _ (List.mem_of_getElem? issuing), List.forall_mem_singleton.mpr xWf⟩

/-- Settles O53: a step waits, or consumes a word, runs it and delivers its response; each keeps the block's part, and the
delivery adds one well-formed response to the hosts' part. -/
theorem everyStepKeepsTheInvariant : Obligations.EveryStepKeepsTheInvariant := by
  intro s t inv stepped
  obtain ⟨-, rfl⟩ | ⟨k, w, a, u, accepted, ran, rfl⟩ := step_next stepped
  · exact inv
  · obtain ⟨block, hostsWf, -⟩ := State.inv_iff.mp inv
    obtain ⟨ws, rs, x, issuing, xWf, hosts⟩ := deliver_hosts_of_accept accepted ran
    have afterRun : u.BlockInv := runWord_keeps_blockInv ran (State.accept_keeps_blockInv accepted block)
    refine State.inv_iff.mpr ⟨State.deliver_keeps_blockInv afterRun k, ?_, u.deliver_response k⟩
    rw [hosts]
    exact hostsWf.set_answered issuing xWf

/-- Settles O54: reset has written no SYMBUF byte and recorded no transaction, and has no host. -/
theorem invariantHoldsAtReset : Obligations.InvariantHoldsAtReset :=
  State.inv_iff.mpr
    ⟨⟨Memory.wf_nil, rfl, List.forall_mem_nil _, by simp [State.reset]⟩, List.forall_mem_nil _, rfl⟩

end Sys2Proof.Machine
end

section
/-! SUPPORT. The assembler refuses, never truncates: the well-formed statements are those that stand for a command
(30_encoding.md section 3). -/

namespace Sys2Proof.Machine

/-- The operand fits its field (R68). -/
def Fits (kind : OperandKind) (v : Nat) : Prop := v ≤ kind.limit

theorem checkOperands_eq_none_iff {kinds : List OperandKind} {vs : List Nat} :
    checkOperands kinds vs = none ↔ List.Forall₂ Fits kinds vs := by
  induction kinds generalizing vs with
  | nil => cases vs <;> simp [checkOperands]
  | cons kind kinds ih =>
    cases vs with
    | nil => simp [checkOperands]
    | cons v vs =>
      rw [checkOperands, List.forall₂_cons, Fits]
      split
      next fits => simp [fits, ih]
      next tooLarge => simp [tooLarge]

theorem wellFormed_iff_fits {m : Mnemonic} {vs : List Nat} :
    AsmLine.wellFormed ⟨m, vs⟩ = true ↔ List.Forall₂ Fits m.operandKinds vs :=
  beq_iff_eq.trans checkOperands_eq_none_iff

theorem exists_index_of_fits {v : Nat} (fits : Fits .index v) : ∃ idx : BitVec 16, idx.toNat = v :=
  ⟨.ofNatLT v (Nat.lt_succ_of_le fits), rfl⟩

theorem exists_channel_of_fits {v : Nat} (fits : Fits .channel v) : ∃ c : Byte, c.toNat = v :=
  ⟨.ofNatLT v (Nat.lt_succ_of_le fits), rfl⟩

theorem exists_bit_of_fits {v : Nat} (fits : Fits .bit v) : ∃ bit : BitVec 1, bit.toNat = v :=
  ⟨.ofNatLT v (Nat.lt_succ_of_le fits), rfl⟩

/-- Operands of the right number that fit their fields are those of a command. -/
theorem exists_disassemble_of_fits {m : Mnemonic} {vs : List Nat} (fits : List.Forall₂ Fits m.operandKinds vs) :
    ∃ i, disassemble i = ⟨m, vs⟩ := by
  cases m with
  | init => cases fits; exact ⟨.init, rfl⟩
  | deinit => cases fits; exact ⟨.deinit, rfl⟩
  | setLed =>
    obtain _ | ⟨idxFits, _ | ⟨rFits, _ | ⟨gFits, _ | ⟨bFits, ⟨⟩⟩⟩⟩⟩ := fits
    obtain ⟨idx, rfl⟩ := exists_index_of_fits idxFits
    obtain ⟨r, rfl⟩ := exists_channel_of_fits rFits
    obtain ⟨g, rfl⟩ := exists_channel_of_fits gFits
    obtain ⟨b, rfl⟩ := exists_channel_of_fits bFits
    exact ⟨.setLed idx r g b, rfl⟩
  | setAllLeds =>
    obtain _ | ⟨rFits, _ | ⟨gFits, _ | ⟨bFits, ⟨⟩⟩⟩⟩ := fits
    obtain ⟨r, rfl⟩ := exists_channel_of_fits rFits
    obtain ⟨g, rfl⟩ := exists_channel_of_fits gFits
    obtain ⟨b, rfl⟩ := exists_channel_of_fits bFits
    exact ⟨.setAllLeds r g b, rfl⟩
  | clearLeds => cases fits; exact ⟨.clearLeds, rfl⟩
  | getLed =>
    obtain _ | ⟨idxFits, ⟨⟩⟩ := fits
    obtain ⟨idx, rfl⟩ := exists_index_of_fits idxFits
    exact ⟨.getLed idx, rfl⟩
  | encBit =>
    obtain _ | ⟨bitFits, ⟨⟩⟩ := fits
    obtain ⟨bit, rfl⟩ := exists_bit_of_fits bitFits
    exact ⟨.encBit bit, rfl⟩
  | update => cases fits; exact ⟨.update, rfl⟩

theorem assembles (i : Instr) : Laws.Assembles.Statement i := by
  cases i with
  | init => exact Laws.Assembles.init
  | deinit => exact Laws.Assembles.deinit
  | setLed idx r g b => exact Laws.Assembles.setLed idx r g b
  | setAllLeds r g b => exact Laws.Assembles.setAllLeds r g b
  | clearLeds => exact Laws.Assembles.clearLeds
  | getLed idx => exact Laws.Assembles.getLed idx
  | encBit bit => exact Laws.Assembles.encBit bit
  | update => exact Laws.Assembles.update

theorem wellFormed_iff_disassembles {a : AsmLine} : a.wellFormed = true ↔ ∃ i, disassemble i = a := by
  constructor
  · exact fun wf => exists_disassemble_of_fits (wellFormed_iff_fits.mp wf)
  · rintro ⟨i, rfl⟩
    exact (assembles i).1

theorem wellFormed_of_assemble {a : AsmLine} {i : Instr} (assembled : assemble a = .ok i) : a.wellFormed = true := by
  cases check : a.check with
  | none => exact beq_iff_eq.mpr check
  | some e => simp [assemble, check] at assembled

/-- Assembling is the inverse of disassembling. -/
theorem assemble_eq_ok_iff {a : AsmLine} {i : Instr} : assemble a = .ok i ↔ disassemble i = a := by
  constructor
  · intro assembled
    obtain ⟨j, rfl⟩ := wellFormed_iff_disassembles.mp (wellFormed_of_assemble assembled)
    rw [(assembles j).2] at assembled
    rw [Except.ok.inj assembled]
  · rintro rfl
    exact (assembles i).2

/-- Settles O46. -/
theorem assemblerRefusesWhatDoesNotFit : Obligations.AssemblerRefusesWhatDoesNotFit := by
  refine ⟨fun a => ?assembles, fun a i => assemble_eq_ok_iff.mp, fun v r g b => ?setLed, fun v => ?encBit⟩
  case assembles => simp only [wellFormed_iff_disassembles, assemble_eq_ok_iff]
  case setLed => simp [wellFormed_iff_fits, Mnemonic.operandKinds, Fits, OperandKind.limit]
  case encBit =>
    simp only [wellFormed_iff_fits, Mnemonic.operandKinds, Fits, OperandKind.limit, List.forall₂_cons,
      List.Forall₂.nil, and_true]
    omega

end Sys2Proof.Machine
end
